-- ==== Sys2Proof/Word.lean ====
section
/-! DEFINITION. The word types of the core: a serial byte and a microsecond count. -/

namespace Sys2Proof

/-- One received or sent serial byte (spec/00 section 5). -/
abbrev Byte := BitVec 8

/-- `TS_W`, the width in bits of the microsecond counter and of every timestamp and captured width (R5). -/
abbrev tsW : Nat := 32

/-- A microsecond count: `now_us`, a timestamp or a captured width (R11, R12, R25). It wraps. -/
abbrev Us := BitVec tsW

end Sys2Proof
end

