-- ==== Sys2Proof/Syntax.lean ====
section
/-! DEFINITION. The operations of the core: one constructor per row of spec/opcode_table.json. -/

namespace Sys2Proof

/-- The three PWM inputs, codes 0, 1, 2 (R10). -/
inductive Channel where
  | steer
  | throt
  | mode
  deriving DecidableEq, Repr

/-- VehicleMode, codes 0, 1, 2 (R10). -/
inductive VehicleMode where
  | undetermined
  | manual
  | auto
  deriving DecidableEq, Repr

/-- The modes a captured width can select: Classify "never returns Undetermined" (R150), and only these two are
announced (R156). -/
inductive ActiveMode where
  | manual
  | auto
  deriving DecidableEq, Repr

/-- Direction, codes Stop 0, Forward 1, Backward 2 (R10). -/
inductive Direction where
  | stop
  | forward
  | backward
  deriving DecidableEq, Repr

/-- The atomic operations of the core, in the order of spec/opcode_table.json. -/
inductive Instr where
  /-- RESET (R260). -/
  | reset
  /-- TICK d (R213). -/
  | tick (d : Nat)
  /-- PIN c v (R100): pin `c` is driven to level `v`. -/
  | pin (c : Channel) (v : Bool)
  /-- PIN.RISE c (R101). -/
  | pinRise (c : Channel)
  /-- PIN.FALL c (R102, R103). -/
  | pinFall (c : Channel)
  /-- PIN.SAME c (R100): the pin is driven to the level it had, `v`. -/
  | pinSame (c : Channel) (v : Bool)
  /-- CYCLE (R210). -/
  | cycle
  /-- RX.LF (R121). -/
  | rxLf
  /-- RX.CR (R122). -/
  | rxCr
  /-- RX.DATA b (R123). -/
  | rxData (b : Byte)
  /-- LINE.EMPTY (R121): a bare terminator. -/
  | lineEmpty
  /-- LINE.OVERSIZE (R123): 32 data bytes with no terminator between. -/
  | lineOversize (bytes : List Byte)
  /-- LINE.NOMARK (R127): a frame that lacks a marker. -/
  | lineNoMark (frame : List Byte)
  /-- LINE.BADINT (R126): a frame with both markers and no integer. -/
  | lineBadInt (frame : List Byte)
  /-- CMD.F (R130), with the parsed integer. -/
  | cmdF (v : Int)
  /-- CMD.B (R131), with the parsed integer. -/
  | cmdB (v : Int)
  /-- CMD.S (R132), with the parsed integer. -/
  | cmdS (v : Int)
  /-- CMD.X (R133), with the parsed integer and the direction byte, if there is one. -/
  | cmdX (v : Int) (c : Option Byte)
  /-- SAMPLE(c) (R107). -/
  | sample (c : Channel)
  /-- ARB.EVAL (R151). -/
  | arbEval
  /-- UNDET.HOLD (R155). -/
  | undetHold
  /-- TX.MODE(m) (R156). -/
  | txMode (m : ActiveMode)
  /-- STEER.CMD(angle) (R171), any integer. -/
  | steerCmd (angle : Int)
  /-- DRIVE.CMD(d) (R173). -/
  | driveCmd (d : Direction)
  /-- DWELL.SERVICE (R174). -/
  | dwellService
  /-- STOPALL (R176). -/
  | stopAll
  /-- AUTO.APPLY (R181). -/
  | autoApply
  /-- MANUAL.STEER (R177). -/
  | manualSteer
  /-- MANUAL.DRIVE (R178). -/
  | manualDrive
  /-- IND.UPDATE (R200). -/
  | indUpdate
  deriving DecidableEq, Repr

/-- An EVENT operation as it is given: its name with its fields (R70, R71, R83). The channel has 2 bits and the level
1 bit. -/
inductive EventWord where
  | reset
  | tick (d : Nat)
  | pin (c : BitVec 2) (v : BitVec 1)
  | cycle
  deriving DecidableEq, Repr

/-- What an agent outside CYCLE can do: an EVENT operation, or one received byte (R70, R72). -/
inductive Stimulus where
  | event (e : EventWord)
  | byte (b : Byte)
  deriving DecidableEq, Repr

/-- What an agent does of its own accord (R8): an operation of the environment, or one main cycle. Every value is an
operation that the spec gives a meaning, so a sequence of these is a run of R9. -/
inductive Act where
  | reset
  | tick (d : Nat)
  | pin (c : Channel) (v : Bool)
  | cycle
  | byte (b : Byte)
  deriving DecidableEq, Repr, Inhabited

/-- A PHASE operation as it is named: its name with its operands, enumerations as their 2-bit codes (R10, R83). -/
inductive PhaseWord where
  | sample (c : BitVec 2)
  | arbEval
  | undetHold
  | txMode (m : BitVec 2)
  | steerCmd (angle : Int)
  | driveCmd (d : BitVec 2)
  | dwellService
  | stopAll
  | autoApply
  | manualSteer
  | manualDrive
  | indUpdate
  deriving DecidableEq, Repr

/-- An encoded operation, in the formats of R70 (log 14). EVENT and BYTE are `stimulus`; a FRAME is its bytes with
the terminator; the three cases of PIN are told apart by the stored level beside the event (R71, R83). -/
inductive OpWord where
  | stimulus (x : Stimulus)
  | edge (c : BitVec 2) (v : BitVec 1) (line : Bool)
  | frame (bytes : List Byte)
  | phase (p : PhaseWord)
  deriving DecidableEq, Repr

end Sys2Proof
end

