-- ==== Sys2Proof/Config.lean ====
section
/-! DEFINITION. The configuration straps of the core (R4, R5), the two example configurations of spec/95, and the free
choices of the agents. -/

namespace Sys2Proof

/-- The ten options of R4 and the parameters of R5 (`TS_W` is the constant `tsW`). They are constant inputs of the
core (R26): no operation writes them. The numeric options are integers, so that a value that R7 forbids can be
written down and is refused by name. For OUTPUT_MIN, OUTPUT_MAX and STOP_PULSE the table of R4 has the values 1100, 1900
and 1500; the model takes them as options of any value that R7 allows (log 24). DESIGN CHOICE. -/
structure Config where
  domainMin : Int
  domainMax : Int
  outputMin : Int
  outputMax : Int
  /-- Signed, in angle units. -/
  calOffset : Int
  stopPulse : Int
  forwardPulse : Int
  reversePulse : Int
  reversalDwellMs : Int
  manualDivisor : Int
  /-- R5: only `false` has defined semantics. -/
  manualDwell : Bool
  /-- The bytes that end an outbound line (R5). -/
  txEol : List Byte
  /-- Observable only at the output pins (R5, R186). -/
  pwmPeriodUs : Nat
  /-- The time between two main cycles; only a premise of claims (R214). -/
  cyclePeriodUs : Nat
  deriving DecidableEq, Repr

/-- Why a configuration is refused (R5, R7; 93 U2, U6). Refusing is safe: the spec gives such a core no behaviour. -/
inductive ConfigError where
  /-- R7: DOMAIN_MIN < DOMAIN_MAX does not hold. -/
  | domainOrder
  /-- R7: OUTPUT_MIN < OUTPUT_MAX does not hold. -/
  | outputOrder
  /-- R7: MANUAL_DIVISOR ≥ 1 does not hold. -/
  | divisorNotPositive
  /-- R7: the reversal dwell is negative or 2^31 µs or more. -/
  | dwellOutOfRange
  /-- R7: a pulse parameter lies outside 0 .. 2^TS_W - 1. -/
  | pulseOutOfRange
  /-- R5: MANUAL_DWELL = true has no semantics. -/
  | manualDwellUnsupported
  deriving DecidableEq, Repr

/-- CFG-A of spec/95 section 2. Its PWM_PERIOD_US and CYCLE_PERIOD are the model's (log 20). DESIGN CHOICE. -/
def Config.cfgA : Config where
  domainMin := 0
  domainMax := 180
  outputMin := 1100
  outputMax := 1900
  calOffset := 0
  stopPulse := 1500
  forwardPulse := 1600
  reversePulse := 1400
  reversalDwellMs := 200
  manualDivisor := 2
  manualDwell := false
  txEol := [0x0A]
  pwmPeriodUs := 20000
  cyclePeriodUs := 20000

/-- CFG-B of spec/95 section 2, with the same two periods (log 20). DESIGN CHOICE. -/
def Config.cfgB : Config where
  domainMin := 50
  domainMax := 130
  outputMin := 1100
  outputMax := 1900
  calOffset := 5
  stopPulse := 1500
  forwardPulse := 1650
  reversePulse := 1350
  reversalDwellMs := 100
  manualDivisor := 3
  manualDwell := false
  txEol := [0x0A]
  pwmPeriodUs := 20000
  cyclePeriodUs := 20000

/-- What the agents do on the `n`-th turn that State leaves to them: a free value, of which nothing is known (R8, R9,
R214; log 2). Any infinite sequence of operations is a value it may have. -/
opaque Config.freeAct : Nat → Act

end Sys2Proof
end

