-- ==== Sys2Proof/Decode.lean ====
section
/-! DEFINITION. Decoding, total, with refusals by name; then the encoder, from the same tables of spec/30. -/

namespace Sys2Proof

/-! ## Character codes (R81; log 18, PRESUMED) -/

/-- LF. -/
def chLF : Byte := 0x0A
/-- CR. -/
def chCR : Byte := 0x0D
/-- The space. -/
def chSpace : Byte := 0x20
/-- `+`. -/
def chPlus : Byte := 0x2B
/-- `-`. -/
def chMinus : Byte := 0x2D
/-- `0`. -/
def chZero : Byte := 0x30
/-- `:`. -/
def chColon : Byte := 0x3A
/-- `B`. -/
def chB : Byte := 0x42
/-- `D`. -/
def chD : Byte := 0x44
/-- `E`. -/
def chE : Byte := 0x45
/-- `F`. -/
def chF : Byte := 0x46
/-- `S`. -/
def chS : Byte := 0x53

/-- LINE_MAX, the most data bytes a line may have (R6). -/
def lineMax : Nat := 31
/-- LINE_CAP, the capacity of the line buffer (R6). -/
def lineCap : Nat := 32

/-! ## Enumeration codes (R10) -/

/-- The channel a 2-bit code names; 3 is not a channel. -/
def channelOfCode (c : BitVec 2) : Option Channel :=
  match c.toNat with
  | 0 => some .steer
  | 1 => some .throt
  | 2 => some .mode
  | _ => none

/-- The 2-bit code of a channel. -/
def channelCode : Channel → BitVec 2
  | .steer => 0
  | .throt => 1
  | .mode => 2

/-- The 2-bit code of a mode. -/
def modeCode : VehicleMode → BitVec 2
  | .undetermined => 0
  | .manual => 1
  | .auto => 2

/-- The announced mode a 2-bit code names (R156); Undetermined is never announced. -/
def activeModeOfCode (m : BitVec 2) : Option ActiveMode :=
  match m.toNat with
  | 1 => some .manual
  | 2 => some .auto
  | _ => none

/-- An active mode as a VehicleMode. -/
def ActiveMode.toMode : ActiveMode → VehicleMode
  | .manual => .manual
  | .auto => .auto

/-- The direction a 2-bit code names; 3 is none. -/
def directionOfCode (d : BitVec 2) : Option Direction :=
  match d.toNat with
  | 0 => some .stop
  | 1 => some .forward
  | 2 => some .backward
  | _ => none

/-- The 2-bit code of a direction. -/
def directionCode : Direction → BitVec 2
  | .stop => 0
  | .forward => 1
  | .backward => 2

/-! ## Decoding -/

/-- Why a word is no operation. Each is a refusal, and safe: the spec gives the word no meaning. -/
inductive DecodeError where
  /-- Channel code 3 in PIN, in a case of PIN or in SAMPLE (R10, R71). -/
  | notAChannel
  /-- TX.MODE with code 0 or 3 (R80, R156). -/
  | notAnAnnouncedMode
  /-- DRIVE.CMD with code 3 (R10). -/
  | notADirection
  /-- Bytes with no line feed that are not the 32 data bytes of LINE.OVERSIZE (R74). -/
  | frameUnterminated
  /-- More than 31 data bytes before the line feed (R74). -/
  | frameTooLong
  /-- Bytes after the first line feed (R74). -/
  | bytesAfterTerminator
  deriving DecidableEq, Repr

/-- The class of a received byte, by value alone (R72). -/
def decodeByte (b : Byte) : Instr :=
  if b = chLF then .rxLf else if b = chCR then .rxCr else .rxData b

/-- Class RX.DATA: every byte but LF and CR (R72). -/
def isDataByte (b : Byte) : Bool := b ≠ chLF && b ≠ chCR

/-- The smallest index at which the two bytes stand one after the other (spec/00 section 5, R75). -/
def find (a b : Byte) : List Byte → Option Nat
  | x :: y :: rest => if x = a ∧ y = b then some 0 else (find a b (y :: rest)).map (· + 1)
  | _ => none

/-- The leftmost `E:` (R75). -/
def findE (s : List Byte) : Option Nat := find chE chColon s

/-- The leftmost `D:` (R75). -/
def findD (s : List Byte) : Option Nat := find chD chColon s

/-- Bytes 0x30 to 0x39 (R76). -/
def isDigit (b : Byte) : Bool := 0x30 ≤ b.toNat && b.toNat ≤ 0x39

/-- The value of a run of digits, most significant first, exact (R76). -/
def digitsValue (ds : List Byte) : Nat := ds.foldl (fun v b => 10 * v + (b.toNat - 0x30)) 0

/-- The unsigned run at the head of `s`, stopping at the first non-digit; none when it is empty (R76, R125). -/
def parseDigits (s : List Byte) : Option Nat :=
  if (s.takeWhile isDigit).isEmpty then none else some (digitsValue (s.takeWhile isDigit))

/-- ParseInt on the bytes from `p` on: an optional single sign, then at least one digit (R76, R125). -/
def parseInt : List Byte → Option Int
  | [] => none
  | b :: rest =>
    if b = chMinus then (parseDigits rest).map (fun n : Nat => -(n : Int))
    else if b = chPlus then (parseDigits rest).map (fun n : Nat => (n : Int))
    else (parseDigits (b :: rest)).map (fun n : Nat => (n : Int))

/-- The FRAME class of a completed line `s`, in the test order of R78, with its fields (R76, R77). -/
def decodeLine (s : List Byte) : Instr :=
  match findE s, findD s with
  | some e, some d =>
    match parseInt (s.drop (e + 2)) with
    | none => .lineBadInt s
    | some v =>
      if s[d + 2]? = some chF then .cmdF v
      else if s[d + 2]? = some chB then .cmdB v
      else if s[d + 2]? = some chS then .cmdS v
      else .cmdX v s[d + 2]?
  | _, _ => .lineNoMark s

/-- A byte sequence as one FRAME operation (R74, R78). Carriage returns are dropped wherever they stand
(log 17, DEDUCED). -/
def decodeFrame (bytes : List Byte) : Except DecodeError Instr :=
  let ds := bytes.filter (· ≠ chCR)
  let s := ds.takeWhile (· ≠ chLF)
  match ds.dropWhile (· ≠ chLF) with
  | [] => if s.length = lineCap then .ok (.lineOversize s) else .error .frameUnterminated
  | [_] =>
    if s = [] then .ok .lineEmpty
    else if s.length ≤ lineMax then .ok (decodeLine s)
    else .error .frameTooLong
  | _ :: _ :: _ => .error .bytesAfterTerminator

/-- A level field of 1 bit: 1 is high (R71). -/
def levelOf (v : BitVec 1) : Bool := v = 1

/-- EVENT words (R71). -/
def decodeEvent : EventWord → Except DecodeError Instr
  | .reset => .ok .reset
  | .tick d => .ok (.tick d)
  | .pin c v =>
    match channelOfCode c with
    | some ch => .ok (.pin ch (levelOf v))
    | none => .error .notAChannel
  | .cycle => .ok .cycle

/-- What an agent outside CYCLE does, as an operation (R71, R72). -/
def decodeStimulus : Stimulus → Except DecodeError Instr
  | .event e => decodeEvent e
  | .byte b => .ok (decodeByte b)

/-- Which case of PIN: the new level against the stored level (R71, R100). -/
def decodeEdge (c : Channel) (v line : Bool) : Instr :=
  if v = line then .pinSame c v else if v then .pinRise c else .pinFall c

/-- PHASE words (R83). -/
def decodePhase : PhaseWord → Except DecodeError Instr
  | .sample c =>
    match channelOfCode c with
    | some ch => .ok (.sample ch)
    | none => .error .notAChannel
  | .arbEval => .ok .arbEval
  | .undetHold => .ok .undetHold
  | .txMode m =>
    match activeModeOfCode m with
    | some a => .ok (.txMode a)
    | none => .error .notAnAnnouncedMode
  | .steerCmd angle => .ok (.steerCmd angle)
  | .driveCmd d =>
    match directionOfCode d with
    | some dir => .ok (.driveCmd dir)
    | none => .error .notADirection
  | .dwellService => .ok .dwellService
  | .stopAll => .ok .stopAll
  | .autoApply => .ok .autoApply
  | .manualSteer => .ok .manualSteer
  | .manualDrive => .ok .manualDrive
  | .indUpdate => .ok .indUpdate

/-- The operation a word stands for, or why there is none. -/
def decode : OpWord → Except DecodeError Instr
  | .stimulus x => decodeStimulus x
  | .edge c v line =>
    match channelOfCode c with
    | some ch => .ok (decodeEdge ch (levelOf v) line)
    | none => .error .notAChannel
  | .frame bytes => decodeFrame bytes
  | .phase p => decodePhase p

/-! ## Encoding -/

/-- A level as a field of 1 bit (R71). -/
def levelCode (v : Bool) : BitVec 1 := if v then 1 else 0

/-- The character of a decimal digit (R81). -/
def digitByte (d : Nat) : Byte := BitVec.ofNat 8 (0x30 + d)

/-- The decimal digits of `n`, most significant first, at most `fuel` of them. -/
def decimal : Nat → Nat → List Byte
  | 0, _ => []
  | fuel + 1, n => if n < 10 then [digitByte n] else decimal fuel (n / 10) ++ [digitByte (n % 10)]

/-- An integer in decimal, with `-` when it is negative (R73, R82). A line holds at most 31 of its bytes. -/
def renderInt (v : Int) : List Byte :=
  if v < 0 then chMinus :: decimal lineMax v.natAbs else decimal lineMax v.natAbs

/-- The line a sender writes (R82): `E:`, the integer, one space, `D:`, the direction byte. The space, which the grammar
of R73 makes optional, is left out where the line would not fit with it (log 16). -/
def commandText (v : Int) (dir : List Byte) : List Byte :=
  let head := [chE, chColon] ++ renderInt v
  let tail := [chD, chColon] ++ dir
  if (head ++ tail).length < lineMax then head ++ [chSpace] ++ tail else head ++ tail

/-- A line whose direction byte is not `F`, `B` or `S`. An integer of 27 characters beside the byte `E` fits only where
that byte is the first of `E:`, as in `D:E:5` of R134 (log 16). -/
def otherDirText (v : Int) (c : Option Byte) : List Byte :=
  if c = some chE ∧ lineMax < (renderInt v).length + 5 then [chD, chColon] ++ [chE, chColon] ++ renderInt v
  else commandText v c.toList

/-- The word of an operation, in its format. -/
def encode : Instr → OpWord
  | .reset => .stimulus (.event .reset)
  | .tick d => .stimulus (.event (.tick d))
  | .pin c v => .stimulus (.event (.pin (channelCode c) (levelCode v)))
  | .pinRise c => .edge (channelCode c) 1 false
  | .pinFall c => .edge (channelCode c) 0 true
  | .pinSame c v => .edge (channelCode c) (levelCode v) v
  | .cycle => .stimulus (.event .cycle)
  | .rxLf => .stimulus (.byte chLF)
  | .rxCr => .stimulus (.byte chCR)
  | .rxData b => .stimulus (.byte b)
  | .lineEmpty => .frame [chLF]
  | .lineOversize bytes => .frame bytes
  | .lineNoMark s => .frame (s ++ [chLF])
  | .lineBadInt s => .frame (s ++ [chLF])
  | .cmdF v => .frame (commandText v [chF] ++ [chLF])
  | .cmdB v => .frame (commandText v [chB] ++ [chLF])
  | .cmdS v => .frame (commandText v [chS] ++ [chLF])
  | .cmdX v c => .frame (otherDirText v c ++ [chLF])
  | .sample c => .phase (.sample (channelCode c))
  | .arbEval => .phase .arbEval
  | .undetHold => .phase .undetHold
  | .txMode m => .phase (.txMode (modeCode m.toMode))
  | .steerCmd angle => .phase (.steerCmd angle)
  | .driveCmd d => .phase (.driveCmd (directionCode d))
  | .dwellService => .phase .dwellService
  | .stopAll => .phase .stopAll
  | .autoApply => .phase .autoApply
  | .manualSteer => .phase .manualSteer
  | .manualDrive => .phase .manualDrive
  | .indUpdate => .phase .indUpdate

/-- The stimulus with which an agent does `a` (R71, R72). -/
def Act.stimulus : Act → Stimulus
  | .reset => .event .reset
  | .tick d => .event (.tick d)
  | .pin c v => .event (.pin (channelCode c) (levelCode v))
  | .cycle => .event .cycle
  | .byte b => .byte b

/-! ## Words as numbers (the host's numbering: the first byte lowest) -/

/-- The first `n` bytes of a number, least significant first. -/
def bytesOfNat : Nat → Nat → List Byte
  | 0, _ => []
  | n + 1, w => BitVec.ofNat 8 w :: bytesOfNat n (w / 256)

/-- How many bytes `nbits` bits take, at least one. -/
def byteCount (nbits : Nat) : Nat := max 1 ((nbits + 7) / 8)

/-- The operation the decoder reads from a word of `nbits` bits: one byte is a BYTE operation (R72), more are the bytes
of a FRAME, in stream order (R78). EVENT and PHASE operations have no binary encoding (log 15). -/
def decodeTableWord (nbits w : Nat) : Option Instr :=
  match bytesOfNat (byteCount nbits) w with
  | [b] => some (decodeByte b)
  | bytes => (decodeFrame bytes).toOption

end Sys2Proof
end

