-- ==== Sys2Proof/Machine/Operands.lean ====
section
/-! DEFINITION. Pure operand computations: the primitives of spec/00 section 5, the constants of R6, the checks of
R7, and every mapping from a width, an angle or a direction to a pulse. -/

namespace Sys2Proof.Machine

/-! ## Primitives (spec/00 section 5) -/

/-- `clamp(v, lo, hi)`. -/
def clamp (v lo hi : Int) : Int := if v < lo then lo else if hi < v then hi else v

/-- `tdiv(a, b)`: a / b rounded toward zero, for b > 0. -/
def tdiv (a b : Int) : Int := if 0 ≤ a then a / b else -(-a / b)

/-- `(a - b) mod 2^32`. -/
def elapsed (a b : Us) : Us := a - b

/-- A width or a time as an exact integer. -/
def usInt (w : Us) : Int := (w.toNat : Int)

/-! ## Constants of R6 -/

/-- NEUTRAL, in microseconds. -/
def neutralUs : Int := 1500
/-- The neutral default of a captured width (R11). -/
def neutralWidth : Us := 1500
/-- MODE_THRESHOLD. -/
def modeThreshold : Int := 1500
/-- MANUAL_MIN. -/
def manualMin : Int := 1000
/-- MANUAL_MAX. -/
def manualMax : Int := 2000
/-- DEADBAND. -/
def deadband : Int := 100
/-- BLINK_US. -/
def blinkUs : Int := 200000

/-! ## Configuration -/

/-- A pulse parameter within 0 .. 2^TS_W - 1 (R7). -/
def pulseOk (p : Int) : Bool := 0 ≤ p && p < 2 ^ tsW

/-- The first constraint of R7 or R5 that a configuration breaks, in the order of R7 (log 10). OUTPUT_MIN and OUTPUT_MAX
are pulse parameters too (log 19). Within R7 every value of OUTPUT_MIN, OUTPUT_MAX and STOP_PULSE is accepted, not only
the 1100, 1900 and 1500 of R4's table (log 24). DESIGN CHOICE. -/
def configProblem (g : Config) : Option ConfigError :=
  if ¬ g.domainMin < g.domainMax then some .domainOrder
  else if ¬ g.outputMin < g.outputMax then some .outputOrder
  else if ¬ 1 ≤ g.manualDivisor then some .divisorNotPositive
  else if ¬ (0 ≤ g.reversalDwellMs ∧ g.reversalDwellMs * 1000 < 2 ^ 31) then some .dwellOutOfRange
  else if ¬ (pulseOk g.outputMin ∧ pulseOk g.outputMax ∧ pulseOk g.stopPulse ∧ pulseOk g.forwardPulse
      ∧ pulseOk g.reversePulse) then some .pulseOutOfRange
  else if g.manualDwell then some .manualDwellUnsupported
  else none

/-- MID, the domain midpoint (R7). -/
def mid (g : Config) : Int := (g.domainMin + g.domainMax) / 2

/-- An angle clamped to the domain (R124). -/
def clampDomain (g : Config) (v : Int) : Int := clamp v g.domainMin g.domainMax

/-- The calibration offset added, then the clamp (R171). -/
def calibrated (g : Config) (angle : Int) : Int := clampDomain g (angle + g.calOffset)

/-! ## Pulses -/

/-- SteerPulse(a), reversed, with floor rounding (R170). -/
def steerPulse (g : Config) (a : Int) : Int :=
  g.outputMax - (a - g.domainMin) * (g.outputMax - g.outputMin) / (g.domainMax - g.domainMin)

/-- The centre angle after calibration (R171). -/
def neutralAngle (g : Config) : Int := calibrated g (mid g)

/-- The neutral steering pulse (R22, R171). -/
def neutralPulse (g : Config) : Int := steerPulse g (neutralAngle g)

/-- DrivePulse(d) (R172). -/
def drivePulse (g : Config) : Direction → Int
  | .stop => g.stopPulse
  | .forward => g.forwardPulse
  | .backward => g.reversePulse

/-- The Manual steering pulse of a raw width (R177). -/
def manualSteerPulse (w : Us) : Int := clamp (usInt w) manualMin manualMax

/-- The Manual drive pulse of a raw width (R178). -/
def manualDrivePulse (g : Config) (w : Us) : Int :=
  clamp (neutralUs + tdiv (usInt w - neutralUs) g.manualDivisor) manualMin manualMax

/-- REVERSAL_DWELL_MS · 1000 (R174). -/
def dwellUs (g : Config) : Int := g.reversalDwellMs * 1000

/-! ## The announcement and the fields of a completed line -/

/-- The exact text of a mode announcement (R80, R156). -/
def announcement : ActiveMode → List Byte
  | .auto => [0x4D, 0x4F, 0x44, 0x45, 0x3A, 0x41, 0x55, 0x54, 0x4F]
  | .manual => [0x4D, 0x4F, 0x44, 0x45, 0x3A, 0x4D, 0x41, 0x4E, 0x55, 0x41, 0x4C]

/-- DirOf(s, q) (R77): the direction named by the byte at index `q`, if there is one. -/
def dirOf (s : List Byte) (q : Nat) : Direction :=
  if s[q]? = some chF then .forward
  else if s[q]? = some chB then .backward
  else .stop

/-- The fallback command (MID, Stop, invalid) (R127). -/
def fallback (g : Config) : Int × Direction × Bool := (mid g, .stop, false)

/-- The result DecodeLine delivers for a completed line `s` (R124). -/
def lineResult (g : Config) (s : List Byte) : Int × Direction × Bool :=
  match findE s, findD s with
  | some e, some d =>
    match parseInt (s.drop (e + 2)) with
    | some v => (clampDomain g v, dirOf s (d + 2), true)
    | none => fallback g
  | _, _ => fallback g

end Sys2Proof.Machine

/-- The configuration meets R7 and R5. -/
abbrev Sys2Proof.Config.Valid (g : Sys2Proof.Config) : Prop := Sys2Proof.Machine.configProblem g = none
end

