-- ==== Sys2Proof/Machine/Flags.lean ====
section
/-! DEFINITION. The conditions the operations test: Classify, the reversal, the dwell's expiry, the deadband and the
blink interval. -/

namespace Sys2Proof.Machine

/-- Classify(w): at most 1500 selects Auto, above selects Manual (R150). -/
def classify (w : Us) : ActiveMode := if usInt w ≤ modeThreshold then .auto else .manual

/-- A direct change between Forward and Backward (R173, branch (b)). -/
def isReversal (prev d : Direction) : Bool :=
  (d = .forward && prev = .backward) || (d = .backward && prev = .forward)

/-- The dwell that began at `start` is over at `t` (R174). -/
def dwellOver (g : Config) (t start : Us) : Bool := dwellUs g ≤ usInt (elapsed t start)

/-- Steering deviation, signed and exact (R200). -/
def deviation (w : Us) : Int := usInt w - neutralUs

/-- The deviation lights `ind_pos` (R200): strictly beyond the deadband. -/
def beyondPos (w : Us) : Bool := deadband < deviation w

/-- The deviation lights `ind_neg` (R200): strictly beyond the deadband. -/
def beyondNeg (w : Us) : Bool := deviation w < -deadband

/-- A toggle is due at `t` when the last one was at `last` (R200). -/
def blinkDue (t last : Us) : Bool := blinkUs ≤ usInt (elapsed t last)

end Sys2Proof.Machine
end

