-- ==== Sys2Proof/Machine/State.lean ====
section
/-! DEFINITION. The machine's state as plain data (spec/10), its reset, and the reasons a step can stop. -/

namespace Sys2Proof.Machine

/-- One value for each of the three channels. -/
@[ext]
structure PerChannel (α : Type) where
  steer : α
  throt : α
  mode : α
  deriving DecidableEq, Repr

/-- The value of channel `c`. -/
def PerChannel.get {α : Type} (p : PerChannel α) : Channel → α
  | .steer => p.steer
  | .throt => p.throt
  | .mode => p.mode

/-- Channel `c` set to `x`. -/
def PerChannel.set {α : Type} (p : PerChannel α) (c : Channel) (x : α) : PerChannel α :=
  match c with
  | .steer => { p with steer := x }
  | .throt => { p with throt := x }
  | .mode => { p with mode := x }

/-- A PulseChannel record (R11 to R15). -/
@[ext]
structure PulseChannel where
  latestWidthUs : Us
  riseTsUs : Us
  fresh : Bool
  armed : Bool
  line : Bool
  deriving DecidableEq, Repr

/-- An event of the observable trace (R9). -/
inductive Event where
  | steerWrite (p : Int)
  | driveWrite (p : Int)
  | txLine (text : List Byte)
  | lineDecoded (angle : Int) (dir : Direction) (valid : Bool)
  deriving DecidableEq, Repr

/-- Faults: there are none. "No operation of the core raises a fault, traps, halts or returns an error" (R230), so no
constructor is raised by anyone. Safe: the hardware stops on nothing. -/
inductive Fault where
  deriving DecidableEq, Repr

/-- Why the model refuses to go on. Each is raised where the spec itself says that a model must refuse (R230). -/
inductive Refusal where
  /-- Raised by an arm of `exec` whose instruction has no meaning yet; no arm is left so. Safe. -/
  | notModelled (mnemonic : String)
  /-- Raised by `step` when the next stimulus is no operation: a PIN event for channel 3 (R71, 93 U5). Safe. -/
  | badStimulus (e : DecodeError)
  /-- Raised by `step` when the configuration breaks R7 or has MANUAL_DWELL = true (R5, R7, 93 U2, U6). Safe. -/
  | badConfig (e : ConfigError)
  deriving DecidableEq, Repr

/-- The state of the core (spec/10), with its straps, its input pins, the trace of R9 and what the agents do next. -/
@[ext]
structure State where
  /-- The configuration straps (R26); no operation writes them (log 3). -/
  cfg : Config
  /-- The levels of the three input pins, the environment's (R27, R29). -/
  pwmIn : PerChannel Bool
  /-- The three PulseChannel records (R11 to R15). -/
  ch : PerChannel PulseChannel
  /-- R16. -/
  mode : VehicleMode
  /-- The line buffer (R17). -/
  buf : Vector Byte 32
  /-- Bytes accumulated, 0 .. 31 (R18). -/
  len : Fin 32
  /-- R19. -/
  cmdAngle : Int
  /-- R19. -/
  cmdDir : Direction
  /-- R19. -/
  cmdValid : Bool
  /-- R20. -/
  cmdPending : Bool
  /-- R21. -/
  curAngle : Int
  /-- R21. -/
  curDir : Direction
  /-- R21. -/
  prevDir : Direction
  /-- R22. -/
  steerOutUs : Int
  /-- R22. -/
  driveOutUs : Int
  /-- R23. -/
  dwellActive : Bool
  /-- R23. -/
  dwellStartUs : Us
  /-- R23. -/
  pendingDir : Direction
  /-- R24. -/
  indPos : Bool
  /-- R24. -/
  indNeg : Bool
  /-- R24. -/
  blinkState : Bool
  /-- R24. -/
  blinkLastUs : Us
  /-- R25. -/
  nowUs : Us
  /-- The observable events so far, oldest first (R9; log 6). -/
  trace : List Event
  /-- What the agents do next, in order (log 1). -/
  agenda : List Stimulus
  /-- How many turns have been left to the agents' free choice, each with an empty agenda (log 2). -/
  turn : Nat
  deriving DecidableEq, Repr

/-- A PulseChannel after reset, its pin at level `level` (R30). -/
def PulseChannel.reset (level : Bool) : PulseChannel where
  latestWidthUs := neutralWidth
  riseTsUs := 0
  fresh := false
  armed := false
  line := level

/-- The state after reset (R30) in configuration `cfg` with the input pins at the levels `pins`. The line buffer, whose
contents the spec leaves unspecified, holds zeros (log 5). DESIGN CHOICE. -/
def State.resetOf (cfg : Config) (pins : PerChannel Bool) : State where
  cfg := cfg
  pwmIn := pins
  ch := ⟨PulseChannel.reset pins.steer, PulseChannel.reset pins.throt, PulseChannel.reset pins.mode⟩
  mode := .undetermined
  buf := Vector.replicate 32 0
  len := 0
  cmdAngle := mid cfg
  cmdDir := .stop
  cmdValid := false
  cmdPending := false
  curAngle := neutralAngle cfg
  curDir := .stop
  prevDir := .stop
  steerOutUs := neutralPulse cfg
  driveOutUs := cfg.stopPulse
  dwellActive := false
  dwellStartUs := 0
  pendingDir := .stop
  indPos := false
  indNeg := false
  blinkState := false
  blinkLastUs := 0
  nowUs := 0
  trace := []
  agenda := []
  turn := 0

/-- The machine right after reset, in the example configuration CFG-A with all pins low (log 3, log 4). DESIGN
CHOICE. -/
def State.reset : State := State.resetOf Config.cfgA ⟨false, false, false⟩

end Sys2Proof.Machine
end

