-- ==== Sys2Proof/Machine/Ops.lean ====
section
/-! DEFINITION. The named operations over the state that the meanings share. Where the spec writes `t`, the value of
`now_us` a CYCLE reads at its start, the state's `nowUs` stands: no phase changes it (log 8). -/

namespace Sys2Proof.Machine

/-! ## The trace and the output registers -/

/-- `emit Ev(...)` (R9). -/
def emit (e : Event) (s : State) : State := { s with trace := s.trace ++ [e] }

/-- WriteSteer(p): the register and the record of the write (R180). -/
def writeSteer (p : Int) (s : State) : State := emit (.steerWrite p) { s with steerOutUs := p }

/-- WriteDrive(p): the register and the record of the write (R180). -/
def writeDrive (p : Int) (s : State) : State := emit (.driveWrite p) { s with driveOutUs := p }

/-! ## Channels -/

/-- The record of channel `c` replaced. -/
def setChannel (c : Channel) (k : PulseChannel) (s : State) : State := { s with ch := s.ch.set c k }

/-- SAMPLE(c): the width, and the state with the fresh flag cleared, in one step (R54, R107). -/
def sample (c : Channel) (s : State) : Us × State :=
  ((s.ch.get c).latestWidthUs, setChannel c { s.ch.get c with fresh := false } s)

/-- PIN.RISE c (R101). -/
def pinRise (c : Channel) (s : State) : State :=
  setChannel c { s.ch.get c with riseTsUs := s.nowUs, armed := true } s

/-- PIN.FALL c: the width is stored only when the channel is armed (R102, R103). -/
def pinFall (c : Channel) (s : State) : State :=
  if (s.ch.get c).armed then
    setChannel c { s.ch.get c with latestWidthUs := elapsed s.nowUs (s.ch.get c).riseTsUs, fresh := true } s
  else s

/-- PIN c v: the pin takes its level, and the capture unit compares it with the level it saw last (R100). -/
def pinEvent (c : Channel) (v : Bool) (s : State) : State :=
  let s := { s with pwmIn := s.pwmIn.set c v }
  if v = (s.ch.get c).line then s
  else if v then pinRise c (setChannel c { s.ch.get c with line := true } s)
  else pinFall c (setChannel c { s.ch.get c with line := false } s)

/-! ## The line buffer and the command registers -/

/-- The bytes buffered so far, `buf[0 .. len-1]` (R51). -/
def lineText (s : State) : List Byte := s.buf.toList.take s.len.val

/-- A data byte stored at `buf[len]`, or, when 31 bytes are there, the buffer emptied and the byte dropped (R123). -/
def storeByte (b : Byte) (s : State) : State :=
  if h : s.len.val < 31 then
    { s with buf := s.buf.set s.len.val b s.len.isLt, len := ⟨s.len.val + 1, by omega⟩ }
  else { s with len := 0 }

/-- The buffer emptied (R121, R123). -/
def clearLine (s : State) : State := { s with len := 0 }

/-- Deliver(a, dir, valid), the one place the command registers are written (R128). -/
def deliver (r : Int × Direction × Bool) (s : State) : State :=
  emit (.lineDecoded r.1 r.2.1 r.2.2)
    { s with cmdAngle := r.1, cmdDir := r.2.1, cmdValid := r.2.2, cmdPending := true }

/-- `cmd_pending <- false` (R20). -/
def discardCommand (s : State) : State := { s with cmdPending := false }

/-! ## Actuators -/

/-- STEER.CMD(angle) (R171). -/
def steerCmd (angle : Int) (s : State) : State :=
  writeSteer (steerPulse s.cfg (calibrated s.cfg angle)) { s with curAngle := calibrated s.cfg angle }

/-- DRIVE.CMD(d): deferred during a dwell (a), a dwell begun on a reversal (b), else written at once (c) (R173). -/
def driveCmd (d : Direction) (s : State) : State :=
  if s.dwellActive then { s with curDir := d, pendingDir := d }
  else if isReversal s.prevDir d then
    writeDrive s.cfg.stopPulse
      { s with curDir := d, dwellActive := true, dwellStartUs := s.nowUs, pendingDir := d }
  else writeDrive (drivePulse s.cfg d) { s with curDir := d, prevDir := d }

/-- DWELL.SERVICE: the pending direction is written when the dwell is over (R174). -/
def dwellService (s : State) : State :=
  if s.dwellActive && dwellOver s.cfg s.nowUs s.dwellStartUs then
    writeDrive (drivePulse s.cfg s.pendingDir) { s with prevDir := s.pendingDir, dwellActive := false }
  else s

/-- Both indicators off (R176, R200). -/
def indicatorsOff (s : State) : State := { s with indPos := false, indNeg := false }

/-- STOPALL (R176). -/
def stopAll (s : State) : State := discardCommand (indicatorsOff (driveCmd .stop (steerCmd (mid s.cfg) s)))

/-! ## The mode -/

/-- TX.MODE(m): one outbound line (R156). -/
def txMode (m : ActiveMode) (s : State) : State := emit (.txLine (announcement m)) s

/-- Transition(m'): the one entry that overrides normal processing (R152, R239). It saves nothing; STOPALL is done
before the mode changes, and the announcement follows. Its return is the next CYCLE (R240). -/
def transition (m : ActiveMode) (s : State) : State := txMode m { stopAll s with mode := m.toMode }

/-- ARB.EVAL: whether it changed the mode, and the state (R151, R153). -/
def arbEval (s : State) : Bool × State :=
  if (s.ch.get .mode).fresh then
    let m := classify (sample .mode s).1
    if m.toMode = s.mode then (false, (sample .mode s).2)
    else (true, transition m (sample .mode s).2)
  else (false, s)

/-- UNDET.HOLD (R155). -/
def undetHold (s : State) : State := discardCommand (driveCmd .stop (steerCmd (mid s.cfg) s))

/-- AUTO.APPLY: the pending command is consumed and applied, steering first (R181). -/
def autoApply (s : State) : State :=
  if s.cmdPending then driveCmd s.cmdDir (steerCmd s.cmdAngle (discardCommand s)) else s

/-- MANUAL.STEER (R177). -/
def manualSteer (s : State) : State :=
  if (s.ch.get .steer).fresh then writeSteer (manualSteerPulse (sample .steer s).1) (sample .steer s).2 else s

/-- MANUAL.DRIVE: blocked while a dwell runs (R178). -/
def manualDrive (s : State) : State :=
  if (s.ch.get .throt).fresh && !s.dwellActive then
    writeDrive (manualDrivePulse s.cfg (sample .throt s).1) (sample .throt s).2
  else s

/-- The shared toggle phase, advanced when a toggle is due (R200, R201). -/
def blinkAdvance (s : State) : State :=
  if blinkDue s.nowUs s.blinkLastUs then { s with blinkLastUs := s.nowUs, blinkState := !s.blinkState } else s

/-- IND.UPDATE: a plain read of the raw steering width (R200). -/
def indUpdate (s : State) : State :=
  let w := (s.ch.get .steer).latestWidthUs
  if beyondPos w then { blinkAdvance s with indPos := (blinkAdvance s).blinkState, indNeg := false }
  else if beyondNeg w then { blinkAdvance s with indNeg := (blinkAdvance s).blinkState, indPos := false }
  else indicatorsOff s

/-- Phase B: the handler of the active mode (R210, R216). -/
def handler (s : State) : State :=
  match s.mode with
  | .undetermined => undetHold s
  | .manual => discardCommand (manualDrive (manualSteer s))
  | .auto => autoApply s

/-- Phase D: the indicator runs in Manual mode only (R202, R210). -/
def indicatorPhase (s : State) : State := if s.mode = .manual then indUpdate s else s

/-- CYCLE: phases A to D; a transition cycle runs no handler and no indicator update (R210, R212). -/
def cycle (s : State) : State :=
  if (arbEval s).1 then dwellService (arbEval s).2
  else indicatorPhase (dwellService (handler (arbEval s).2))

/-- TICK d: only the counter moves, and it wraps (R213). -/
def advance (d : Nat) (s : State) : State := { s with nowUs := s.nowUs + BitVec.ofNat tsW d }

/-- RESET: every element as the table of R30 has it, the lines from the pins. The straps and the pins are not the
core's to reset (R26, R29), and the trace, the agenda and the count of free turns go on (log 6). -/
def resetEvent (s : State) : State :=
  { State.resetOf s.cfg s.pwmIn with trace := s.trace, agenda := s.agenda, turn := s.turn }

/-! ## What comes next -/

/-- The next stimulus: the head of the agenda, or, when that is empty, a free choice of the agents, a fresh one each time
(R8, R9, R214; log 1, log 2). -/
def fetch (s : State) : Stimulus × State :=
  match s.agenda with
  | [] => ((Config.freeAct s.turn).stimulus, { s with turn := s.turn + 1 })
  | x :: rest => (x, { s with agenda := rest })

/-- The line buffer filled with the bytes of `text`, one data byte after the other, from empty. -/
def loadLine (text : List Byte) (s : State) : State := text.foldl (fun s b => storeByte b s) (clearLine s)

/-- The bytes of a frame placed so that the next step completes it: all but the last are in the line buffer already,
and the last is the next stimulus. Carriage returns are dropped (R74). -/
def placeFrame (bytes : List Byte) (s : State) : State :=
  let ds := bytes.filter (· ≠ chCR)
  let s := loadLine ds.dropLast s
  { s with agenda := (ds.getLast?.map Stimulus.byte).toList ++ s.agenda }

/-- A word in the host's numbering (log 15). One byte is put at the head of the agenda; the bytes of a frame stand in
the line buffer, its last byte at the head of the agenda, so that the very next step runs the frame's operation. -/
def placeWord (nbits w : Nat) (s : State) : State :=
  match bytesOfNat (byteCount nbits) w with
  | [b] => { s with agenda := .byte b :: s.agenda }
  | bytes => placeFrame bytes s

end Sys2Proof.Machine
end

