-- ==== Sys2Proof/Machine/Indicator.lean ====
section
/-! DEFINITION. The Indicator Driver (spec/44): IND.UPDATE. -/

namespace Sys2Proof.Machine

/-- IND.UPDATE (R200). -/
def execIndUpdate (s : State) : Host.Outcome State Fault Refusal := .next (indUpdate s)

end Sys2Proof.Machine
end

