-- ==== Sys2Proof/Machine/LineDecoder.lean ====
section
/-! DEFINITION. The Command Protocol Decoder (spec/41): the BYTE operations and the FRAME operations. -/

namespace Sys2Proof.Machine

/-- RX.LF: a non-empty line is decoded and the buffer emptied; an empty one gives nothing (R121, R124). -/
def execRxLf (s : State) : Host.Outcome State Fault Refusal :=
  if s.len = 0 then .next s else .next (clearLine (deliver (lineResult s.cfg (lineText s)) s))

/-- RX.CR: "a carriage-return byte is ignored" (R122). -/
def execRxCr (s : State) : Host.Outcome State Fault Refusal := .next s

/-- RX.DATA b (R123). -/
def execRxData (b : Byte) (s : State) : Host.Outcome State Fault Refusal := .next (storeByte b s)

/-- LINE.EMPTY: "a bare terminator on an empty buffer produces no event" (R121). -/
def execLineEmpty (s : State) : Host.Outcome State Fault Refusal := .next s

/-- LINE.OVERSIZE: the 32 bytes are dropped, and nothing is delivered (R123). -/
def execLineOversize (_bytes : List Byte) (s : State) : Host.Outcome State Fault Refusal := .next (clearLine s)

/-- LINE.NOMARK: the fallback command (R127). -/
def execLineNoMark (_frame : List Byte) (s : State) : Host.Outcome State Fault Refusal :=
  .next (deliver (fallback s.cfg) s)

/-- LINE.BADINT: the whole fallback command; the direction byte is not looked at (R126). -/
def execLineBadInt (_frame : List Byte) (s : State) : Host.Outcome State Fault Refusal :=
  .next (deliver (fallback s.cfg) s)

/-- CMD.F (R130). -/
def execCmdF (v : Int) (s : State) : Host.Outcome State Fault Refusal :=
  .next (deliver (clampDomain s.cfg v, .forward, true) s)

/-- CMD.B (R131). -/
def execCmdB (v : Int) (s : State) : Host.Outcome State Fault Refusal :=
  .next (deliver (clampDomain s.cfg v, .backward, true) s)

/-- CMD.S (R132). -/
def execCmdS (v : Int) (s : State) : Host.Outcome State Fault Refusal :=
  .next (deliver (clampDomain s.cfg v, .stop, true) s)

/-- CMD.X: the angle is kept and the frame stays valid; the direction is Stop (R133). -/
def execCmdX (v : Int) (_c : Option Byte) (s : State) : Host.Outcome State Fault Refusal :=
  .next (deliver (clampDomain s.cfg v, .stop, true) s)

end Sys2Proof.Machine
end

