-- ==== Sys2Proof/Machine/MainCycle.lean ====
section
/-! DEFINITION. The main cycle and the environment's own events (spec/45, spec/70): CYCLE, TICK, RESET. -/

namespace Sys2Proof.Machine

/-- CYCLE (R210). -/
def execCycle (s : State) : Host.Outcome State Fault Refusal := .next (cycle s)

/-- TICK d (R213). -/
def execTick (d : Nat) (s : State) : Host.Outcome State Fault Refusal := .next (advance d s)

/-- RESET (R260). -/
def execReset (s : State) : Host.Outcome State Fault Refusal := .next (resetEvent s)

end Sys2Proof.Machine
end

