-- ==== Sys2Proof/Machine/ModeArbiter.lean ====
section
/-! DEFINITION. The Mode Arbiter (spec/42): ARB.EVAL, UNDET.HOLD, TX.MODE. -/

namespace Sys2Proof.Machine

/-- ARB.EVAL (R151); whether the mode changed shows in `mode` itself (log 11). -/
def execArbEval (s : State) : Host.Outcome State Fault Refusal := .next (arbEval s).2

/-- UNDET.HOLD (R155). -/
def execUndetHold (s : State) : Host.Outcome State Fault Refusal := .next (undetHold s)

/-- TX.MODE(m) (R156). -/
def execTxMode (m : ActiveMode) (s : State) : Host.Outcome State Fault Refusal := .next (txMode m s)

end Sys2Proof.Machine
end

