-- ==== Sys2Proof/Machine/OutputMapper.lean ====
section
/-! DEFINITION. The Actuator Output Mapper (spec/43): steering and drive commands, the dwell, stop-all, and the Auto and
Manual paths. -/

namespace Sys2Proof.Machine

/-- STEER.CMD(angle) (R171). -/
def execSteerCmd (angle : Int) (s : State) : Host.Outcome State Fault Refusal := .next (steerCmd angle s)

/-- DRIVE.CMD(d) (R173). -/
def execDriveCmd (d : Direction) (s : State) : Host.Outcome State Fault Refusal := .next (driveCmd d s)

/-- DWELL.SERVICE (R174). -/
def execDwellService (s : State) : Host.Outcome State Fault Refusal := .next (dwellService s)

/-- STOPALL (R176). -/
def execStopAll (s : State) : Host.Outcome State Fault Refusal := .next (stopAll s)

/-- AUTO.APPLY (R181). -/
def execAutoApply (s : State) : Host.Outcome State Fault Refusal := .next (autoApply s)

/-- MANUAL.STEER (R177). -/
def execManualSteer (s : State) : Host.Outcome State Fault Refusal := .next (manualSteer s)

/-- MANUAL.DRIVE (R178). -/
def execManualDrive (s : State) : Host.Outcome State Fault Refusal := .next (manualDrive s)

end Sys2Proof.Machine
end

