-- ==== Sys2Proof/Machine/PulseCapture.lean ====
section
/-! DEFINITION. Pulse Capture (spec/40): PIN, its three cases, and SAMPLE. -/

namespace Sys2Proof.Machine

/-- PIN c v (R100). -/
def execPin (c : Channel) (v : Bool) (s : State) : Host.Outcome State Fault Refusal := .next (pinEvent c v s)

/-- PIN.RISE c (R101). -/
def execPinRise (c : Channel) (s : State) : Host.Outcome State Fault Refusal := .next (pinRise c s)

/-- PIN.FALL c, armed and unarmed (R102, R103). -/
def execPinFall (c : Channel) (s : State) : Host.Outcome State Fault Refusal := .next (pinFall c s)

/-- PIN.SAME c: no transition, "nothing happens" (R100). -/
def execPinSame (_c : Channel) (_v : Bool) (s : State) : Host.Outcome State Fault Refusal := .next s

/-- SAMPLE(c) (R107): the flag is cleared; the width it returns to its caller stays readable in the channel (log 11). -/
def execSample (c : Channel) (s : State) : Host.Outcome State Fault Refusal := .next (sample c s).2

end Sys2Proof.Machine
end

