-- ==== Sys2Proof/Machine/Dispatch.lean ====
section
/-! DEFINITION. One arm per operation: the meaning of each. -/

namespace Sys2Proof.Machine

def exec (i : Instr) (s : State) : Host.Outcome State Fault Refusal :=
  match i with
  | .reset => Sys2Proof.Machine.execReset s
  | .tick d => Sys2Proof.Machine.execTick d s
  | .pin c v => Sys2Proof.Machine.execPin c v s
  | .pinRise c => Sys2Proof.Machine.execPinRise c s
  | .pinFall c => Sys2Proof.Machine.execPinFall c s
  | .pinSame c v => Sys2Proof.Machine.execPinSame c v s
  | .cycle => Sys2Proof.Machine.execCycle s
  | .rxLf => Sys2Proof.Machine.execRxLf s
  | .rxCr => Sys2Proof.Machine.execRxCr s
  | .rxData b => Sys2Proof.Machine.execRxData b s
  | .lineEmpty => Sys2Proof.Machine.execLineEmpty s
  | .lineOversize bytes => Sys2Proof.Machine.execLineOversize bytes s
  | .lineNoMark frame => Sys2Proof.Machine.execLineNoMark frame s
  | .lineBadInt frame => Sys2Proof.Machine.execLineBadInt frame s
  | .cmdF v => Sys2Proof.Machine.execCmdF v s
  | .cmdB v => Sys2Proof.Machine.execCmdB v s
  | .cmdS v => Sys2Proof.Machine.execCmdS v s
  | .cmdX v c => Sys2Proof.Machine.execCmdX v c s
  | .sample c => Sys2Proof.Machine.execSample c s
  | .arbEval => Sys2Proof.Machine.execArbEval s
  | .undetHold => Sys2Proof.Machine.execUndetHold s
  | .txMode m => Sys2Proof.Machine.execTxMode m s
  | .steerCmd angle => Sys2Proof.Machine.execSteerCmd angle s
  | .driveCmd d => Sys2Proof.Machine.execDriveCmd d s
  | .dwellService => Sys2Proof.Machine.execDwellService s
  | .stopAll => Sys2Proof.Machine.execStopAll s
  | .autoApply => Sys2Proof.Machine.execAutoApply s
  | .manualSteer => Sys2Proof.Machine.execManualSteer s
  | .manualDrive => Sys2Proof.Machine.execManualDrive s
  | .indUpdate => Sys2Proof.Machine.execIndUpdate s

end Sys2Proof.Machine
end

