-- ==== Sys2Proof/Machine/Step.lean ====
section
/-! DEFINITION. One step of the core: the next stimulus is taken, decoded and executed. -/

namespace Sys2Proof.Machine

/-- One atomic operation (R8). A configuration outside R7, or with MANUAL_DWELL = true, is refused; so is a PIN event
for channel 3 (R230). -/
def step (s : State) : Host.Outcome State Fault Refusal :=
  match configProblem s.cfg with
  | some e => .refused (.badConfig e)
  | none =>
    match decodeStimulus (fetch s).1 with
    | .error e => .refused (.badStimulus e)
    | .ok i => exec i (fetch s).2

/-- The word placed so that the next step runs it: see `placeWord`. -/
def State.withFetchWord (s : State) (nbits w : Nat) : State := placeWord nbits w s

end Sys2Proof.Machine
end

