-- ==== Sys2Proof/Machine/Ports.lean ====
section
/-! DEFINITION. What the output ports show of a state (R27): the diagnostic taps, the sent bytes and the output
waveforms. Nothing here is state. -/

namespace Sys2Proof.Machine

/-- `dbg_mode`, 2 bits (R10, R27). -/
def State.dbgMode (s : State) : BitVec 2 := modeCode s.mode

/-- `dbg_cmd_valid`, 1 bit (R27). -/
def State.dbgCmdValid (s : State) : BitVec 1 := levelCode s.cmdValid

/-- `dbg_cmd_dir`, 2 bits (R10, R27). -/
def State.dbgCmdDir (s : State) : BitVec 2 := directionCode s.cmdDir

/-- `dbg_cmd_angle`, 16 bits (R27), as two's complement (log 13). -/
def State.dbgCmdAngle (s : State) : BitVec 16 := BitVec.ofInt 16 s.cmdAngle

/-- The bytes one event puts on `tx_data`: a line's text and TX_EOL (R156). -/
def txBytesOf (g : Config) : Event → List Byte
  | .steerWrite _ => []
  | .driveWrite _ => []
  | .txLine text => text ++ g.txEol
  | .lineDecoded _ _ _ => []

/-- All bytes sent on `tx_data` so far, in order (R156; log 22). -/
def State.txData (s : State) : List Byte := s.trace.flatMap (txBytesOf s.cfg)

/-- The level of an output pin `offset` microseconds into a frame whose high time is `highUs` (R186). -/
def pwmLevel (highUs : Int) (offset : Nat) : Bool := (offset : Int) < highUs

/-- One frame of an output pin, microsecond by microsecond. -/
def pwmFrame (highUs : Int) (periodUs : Nat) : List Bool := (List.range periodUs).map (pwmLevel highUs)

/-- The frame of `pwm_out_steer` that begins in state `s`: a write takes effect at the start of the next frame, so the
register's value at the frame's start holds for all of it (R186; log 12). -/
def State.pwmOutSteer (s : State) : List Bool := pwmFrame s.steerOutUs s.cfg.pwmPeriodUs

/-- The frame of `pwm_out_drive` that begins in state `s` (R186; log 12). -/
def State.pwmOutDrive (s : State) : List Bool := pwmFrame s.driveOutUs s.cfg.pwmPeriodUs

end Sys2Proof.Machine
end

