-- ==== Sys2Proof/WellFormed.lean ====
section
/-! DEFINITION. Which terms of `Instr` stand for an operation of the spec; the others are never decoded (log 21). -/

namespace Sys2Proof

/-- The integer fits a line: its decimal text is `fits` bytes at most (R74, R76). -/
def intFits (fits : Nat) (v : Int) : Bool := v < 10 ^ fits && -(10 ^ (fits - 1)) < v

/-- A frame: 1 to 31 data bytes (R74). -/
def isFrameText (s : List Byte) : Bool := 1 ≤ s.length && s.length ≤ lineMax && s.all isDataByte

/-- The byte that a CMD.X frame may hold after `D:`: a data byte other than `F`, `B`, `S` (R133). -/
def isOtherDirByte (b : Byte) : Bool := isDataByte b && b ≠ chF && b ≠ chB && b ≠ chS

/-- Well-formedness, one check per operand that the spec restricts. A line is at most 31 bytes, so `E:`, `D:` and the
direction byte leave 26 bytes for the integer; 27 where no byte follows `D:`, or where that byte is the `E` of `E:`. -/
def Instr.wf : Instr → Bool
  | .reset => true
  | .tick _ => true
  | .pin _ _ => true
  | .pinRise _ => true
  | .pinFall _ => true
  | .pinSame _ _ => true
  | .cycle => true
  | .rxLf => true
  | .rxCr => true
  | .rxData b => isDataByte b
  | .lineEmpty => true
  | .lineOversize bytes => bytes.length = lineCap && bytes.all isDataByte
  | .lineNoMark s => isFrameText s && ((findE s).isNone || (findD s).isNone)
  | .lineBadInt s =>
    isFrameText s && (findD s).isSome &&
      (match findE s with
       | some e => (parseInt (s.drop (e + 2))).isNone
       | none => false)
  | .cmdF v => intFits 26 v
  | .cmdB v => intFits 26 v
  | .cmdS v => intFits 26 v
  | .cmdX v (some b) => intFits (if b = chE then 27 else 26) v && isOtherDirByte b
  | .cmdX v none => intFits 27 v
  | .sample _ => true
  | .arbEval => true
  | .undetHold => true
  | .txMode _ => true
  | .steerCmd _ => true
  | .driveCmd _ => true
  | .dwellService => true
  | .stopAll => true
  | .autoApply => true
  | .manualSteer => true
  | .manualDrive => true
  | .indUpdate => true

end Sys2Proof
end

