-- ==== Sys2Proof/Safety.lean ====
section
/-! DEFINITION. What counts as a safe state and a safe run, in the terms the claims use. -/

namespace Sys2Proof.Machine

/-- The steering register holds a pulse that STEER.CMD or MANUAL.STEER can write (R182). -/
def SteerInRange (s : State) : Prop :=
  (s.cfg.outputMin ≤ s.steerOutUs ∧ s.steerOutUs ≤ s.cfg.outputMax) ∨
    (manualMin ≤ s.steerOutUs ∧ s.steerOutUs ≤ manualMax)

/-- The drive register holds one of the three configured pulses or a Manual pulse (R182). -/
def DriveInRange (s : State) : Prop :=
  (∃ d, s.driveOutUs = drivePulse s.cfg d) ∨ (manualMin ≤ s.driveOutUs ∧ s.driveOutUs ≤ manualMax)

/-- An angle of the configured domain (R19, R21). -/
def InDomain (g : Config) (a : Int) : Prop := g.domainMin ≤ a ∧ a ≤ g.domainMax

/-- The safe stop of R158: neutral steering, STOP_PULSE, direction Stop, both indicators off, no command pending. -/
structure SafeStop (s : State) : Prop where
  steering : s.steerOutUs = neutralPulse s.cfg
  drive : s.driveOutUs = s.cfg.stopPulse
  direction : s.curDir = .stop
  indicators : s.indPos = false ∧ s.indNeg = false
  command : s.cmdPending = false

/-- The invariant of the core: what the rules say of every state that a run from reset can reach. -/
structure Inv (s : State) : Prop where
  /-- R7, R26. -/
  config : s.cfg.Valid
  /-- R15: a capture unit's stored level is the pin's level. -/
  lines : ∀ c, (s.ch.get c).line = s.pwmIn.get c
  /-- R11, R13, R14: before the first rising edge the width is the neutral default and is not fresh. -/
  unarmed : ∀ c, (s.ch.get c).armed = false →
    (s.ch.get c).latestWidthUs = neutralWidth ∧ (s.ch.get c).fresh = false
  /-- R79: LF and CR cannot occur inside a frame. -/
  text : ∀ b ∈ lineText s, isDataByte b = true
  /-- R19. -/
  command : InDomain s.cfg s.cmdAngle
  /-- R126, R127, R129: an invalid command is the fallback command. -/
  fallbackCommand : s.cmdValid = false → s.cmdAngle = mid s.cfg ∧ s.cmdDir = .stop
  /-- R21. -/
  angle : InDomain s.cfg s.curAngle
  /-- R182. -/
  steering : SteerInRange s
  /-- R182. -/
  drive : DriveInRange s
  /-- R174, R178: the output holds the Stop pulse throughout a dwell. -/
  dwellHoldsStop : s.dwellActive = true → s.driveOutUs = s.cfg.stopPulse
  /-- R21: during a dwell `cur_dir` is the direction that will be written when it ends. -/
  dwellPending : s.dwellActive = true → s.pendingDir = s.curDir
  /-- R173: `prev_dir` keeps the old direction until the dwell ends. -/
  dwellPrevious : s.dwellActive = true → s.prevDir ≠ .stop
  /-- R21, R173: with no dwell the last direction commanded is the last one written. -/
  noDwellPrevious : s.dwellActive = false → s.prevDir = s.curDir
  /-- R202: an indicator can be on only in Manual mode. -/
  indicatorMode : s.mode ≠ .manual → s.indPos = false ∧ s.indNeg = false
  /-- R200: the opposite indicator is off. -/
  oneIndicator : ¬ (s.indPos = true ∧ s.indNeg = true)
  /-- R200: a lit indicator shows the toggle phase. -/
  indicatorPhase : s.indPos = true ∨ s.indNeg = true → s.blinkState = true
  /-- R155, R241: nothing has moved the actuators while the mode is Undetermined. -/
  undetermined : s.mode = .undetermined →
    s.steerOutUs = neutralPulse s.cfg ∧ s.driveOutUs = s.cfg.stopPulse ∧
      s.curAngle = neutralAngle s.cfg ∧ s.curDir = .stop ∧ s.dwellActive = false
  /-- R179: throughout Manual mode OutputState holds what STOPALL left. -/
  manual : s.mode = .manual → s.curDir = .stop ∧ s.curAngle = neutralAngle s.cfg

/-- The outbound lines among some events, in order (R9, R156). -/
def txLines : List Event → List (List Byte)
  | [] => []
  | .txLine text :: rest => text :: txLines rest
  | .steerWrite _ :: rest => txLines rest
  | .driveWrite _ :: rest => txLines rest
  | .lineDecoded _ _ _ :: rest => txLines rest

/-- No decimal digit stands at the head of `s`, which may be empty (R76). -/
def NoDigitAtHead (s : List Byte) : Prop := ∀ b, s.head? = some b → ¬ (0x30 ≤ b.toNat ∧ b.toNat ≤ 0x39)

/-- What can concern the drive path while a dwell runs (R173 to R175): a drive command, passing time, and the service of
the dwell that each CYCLE makes. -/
inductive DwellAct where
  | command (d : Direction)
  | wait (k : Nat)
  | service
  deriving DecidableEq, Repr

/-- The operation that it is. -/
def DwellAct.instr : DwellAct → Instr
  | .command d => .driveCmd d
  | .wait k => .tick k
  | .service => .dwellService

/-- The time that passes, in microseconds. -/
def waited : List DwellAct → Nat
  | [] => 0
  | .command _ :: rest => waited rest
  | .wait k :: rest => k + waited rest
  | .service :: rest => waited rest

/-- The last direction commanded, `d` when there is none. -/
def lastCommand (d : Direction) : List DwellAct → Direction
  | [] => d
  | .command d' :: rest => lastCommand d' rest
  | .wait _ :: rest => lastCommand d rest
  | .service :: rest => lastCommand d rest

/-- The operations executed one after the other, stopping at the first that does not go on. -/
def execAll : List Instr → State → Host.Outcome State Fault Refusal
  | [], s => .next s
  | i :: rest, s =>
    match exec i s with
    | .next t => execAll rest t
    | .fault r => .fault r
    | .refused r => .refused r

end Sys2Proof.Machine
end

