-- ==== Sys2Proof/Certificates/Slice0/Obligations.lean ====
section
/-! DEFINITION. The statements for the provers, from the numbered rules of spec/. -/

open Sys2Proof Sys2Proof.Machine

/-! ## Encoding -/

/-- Every well-formed operation is decoded from its own word (R71, R72, R76 to R78, R82, R83). The words of EVENT and
PHASE operations and the choice of the canonical line are the model's (log 14, log 16). -/
def Obligations.DecodeOfEncodeIsTheOperation : Prop :=
  ∀ i : Instr, i.wf = true → decode (encode i) = .ok i

/-- The decoder answers nothing but well-formed operations, whatever the word (R72, R74, R76 to R78). -/
def Obligations.DecodedOperationsAreWellFormed : Prop :=
  ∀ (w : OpWord) (i : Instr), decode w = .ok i → i.wf = true

/-- Twelve words decode to the operations they stand for. The bytes and the frames are those of spec/30 and spec/95; the
words of PIN, of its two edges and of DRIVE.CMD are the model's own records of a name and its fields (log 14). -/
def Obligations.SpecWordsDecodeAsWritten : Prop :=
  decode (.stimulus (.byte 0x0A)) = .ok .rxLf ∧
  decode (.stimulus (.byte 0x0D)) = .ok .rxCr ∧
  decode (.stimulus (.byte 0x45)) = .ok (.rxData 0x45) ∧
  decode (.stimulus (.event (.pin 1 1))) = .ok (.pin .throt true) ∧
  decode (.stimulus (.event (.pin 3 0))) = .error .notAChannel ∧
  decode (.edge 2 1 false) = .ok (.pinRise .mode) ∧
  decode (.edge 0 0 true) = .ok (.pinFall .steer) ∧
  decode (.frame [0x45, 0x3A, 0x37, 0x35, 0x20, 0x44, 0x3A, 0x46, 0x0A]) = .ok (.cmdF 75) ∧
  decode (.frame [0x45, 0x3A, 0x2D, 0x35, 0x20, 0x44, 0x3A, 0x42, 0x0A]) = .ok (.cmdB (-5)) ∧
  decode (.frame [0x45, 0x3A, 0x39, 0x39, 0x39, 0x20, 0x44, 0x3A, 0x5A, 0x0D, 0x0A]) = .ok (.cmdX 999 (some 0x5A)) ∧
  decode (.frame [0x45, 0x3A, 0x44, 0x3A, 0x46, 0x0A]) = .ok (.lineBadInt [0x45, 0x3A, 0x44, 0x3A, 0x46]) ∧
  decode (.phase (.driveCmd 2)) = .ok (.driveCmd .backward)

/-- R72: the class of a received byte is a matter of its value alone. -/
def Obligations.ByteClassIsByValueAlone : Prop :=
  ∀ b : Byte, decode (.stimulus (.byte b)) =
    .ok (if b.toNat = 10 then .rxLf else if b.toNat = 13 then .rxCr else .rxData b)

/-- Code 3 in the channel field of PIN is refused, and nothing else of that field is (R71, 93 U5). The words of the edges,
of SAMPLE and of DRIVE.CMD are the model's, which have no binary encoding in the spec, and that code 3 is refused in them
too is the model's choice (log 14); so is that every TICK word is accepted as it stands. -/
def Obligations.CodeThreeAloneIsRefused : Prop :=
  (∀ c v, decode (.stimulus (.event (.pin c v))) = .error .notAChannel ↔ c = 3) ∧
  (∀ c v l, decode (.edge c v l) = .error .notAChannel ↔ c = 3) ∧
  (∀ c, decode (.phase (.sample c)) = .error .notAChannel ↔ c = 3) ∧
  (∀ d, decode (.phase (.driveCmd d)) = .error .notADirection ↔ d = 3) ∧
  (∀ d, decode (.stimulus (.event (.tick d))) = .ok (.tick d))

/-- R75: a marker is found at the smallest index where its two bytes stand one after the other. -/
def Obligations.MarkerIsTheLeftmostOccurrence : Prop :=
  ∀ (a b : Byte) (s : List Byte) (i : Nat), find a b s = some i ↔
    (s[i]? = some a ∧ s[i + 1]? = some b ∧ ∀ j < i, ¬ (s[j]? = some a ∧ s[j + 1]? = some b))

/-- R76: the integer field is an optional sign and the longest run of digits, its exact decimal value, most significant
digit first; with no digit after the optional sign there is no integer. -/
def Obligations.IntegerFieldIsExactDecimal : Prop :=
  (∀ ds rest : List Byte, ds ≠ [] → (∀ b ∈ ds, 0x30 ≤ b.toNat ∧ b.toNat ≤ 0x39) → NoDigitAtHead rest →
    parseInt (ds ++ rest) = some ((Nat.ofDigits 10 (ds.map (fun b => b.toNat - 0x30)).reverse : Nat) : Int) ∧
    parseInt (0x2B :: (ds ++ rest)) =
      some ((Nat.ofDigits 10 (ds.map (fun b => b.toNat - 0x30)).reverse : Nat) : Int) ∧
    parseInt (0x2D :: (ds ++ rest)) =
      some (-((Nat.ofDigits 10 (ds.map (fun b => b.toNat - 0x30)).reverse : Nat) : Int))) ∧
  (∀ rest : List Byte, NoDigitAtHead rest →
    parseInt (0x2B :: rest) = none ∧ parseInt (0x2D :: rest) = none ∧
    (rest.head? ≠ some 0x2B → rest.head? ≠ some 0x2D → parseInt rest = none))

/-! ## The step -/

/-- A step takes the next stimulus off the agenda and is `exec` of the operation it decodes to (R8). With nothing on the
agenda it is `exec` of an operation that an agent chooses freely, and counts the turn (R214). The agenda and the free
choice are the model's (log 1, log 2); the second clause holds whatever the choice is. -/
def Obligations.StepRunsTheDecodedOperation : Prop :=
  ∀ s : State, s.cfg.Valid →
    (∀ x rest i, s.agenda = x :: rest → decode (.stimulus x) = .ok i → step s = exec i { s with agenda := rest }) ∧
    (s.agenda = [] → ∃ i, decode (.stimulus (Config.freeAct s.turn).stimulus) = .ok i ∧
      step s = exec i { s with turn := s.turn + 1 })

/-- What a step refuses, and that it goes on in every other case (R230): a configuration outside R7 or with MANUAL_DWELL
= true, and a PIN event for channel 3. It never faults. -/
def Obligations.StepGoesOnUnlessTheSpecRefuses : Prop :=
  ∀ s : State,
    ((∃ t, step s = .next t) ↔ (s.cfg.Valid ∧ ∀ v rest, s.agenda ≠ .event (.pin 3 v) :: rest)) ∧
    (∀ e, configProblem s.cfg = some e → step s = .refused (.badConfig e)) ∧
    (∀ v rest, s.cfg.Valid → s.agenda = .event (.pin 3 v) :: rest → step s = .refused (.badStimulus .notAChannel))

/-- The configurations the model accepts: those of R7 with MANUAL_DWELL = false (R5), OUTPUT_MIN and OUTPUT_MAX counted
among the pulse parameters (log 19). That OUTPUT_MIN, OUTPUT_MAX and STOP_PULSE may have any value within R7 is the model's
choice (log 24): R4's table gives them 1100, 1900 and 1500. And MID is the floor of the midpoint (R7). -/
def Obligations.AcceptedConfigurationsMeetTheConstraints : Prop :=
  ∀ g : Config,
    (g.Valid ↔
      (g.domainMin < g.domainMax ∧ g.outputMin < g.outputMax ∧ 1 ≤ g.manualDivisor ∧
        0 ≤ g.reversalDwellMs ∧ g.reversalDwellMs * 1000 < 2147483648 ∧
        (∀ p ∈ [g.outputMin, g.outputMax, g.stopPulse, g.forwardPulse, g.reversePulse], 0 ≤ p ∧ p ≤ 4294967295) ∧
        g.manualDwell = false)) ∧
    2 * mid g ≤ g.domainMin + g.domainMax ∧ g.domainMin + g.domainMax < 2 * mid g + 2

/-! ## Reset and time -/

/-- R30: after RESET every element holds the value of the table. The contents of `buf` are not said. -/
def Obligations.ResetGivesTheTableValues : Prop :=
  ∀ s : State, s.cfg.Valid → ∃ t, exec .reset s = .next t ∧
    (∀ c, (t.ch.get c).latestWidthUs.toNat = 1500 ∧ (t.ch.get c).riseTsUs.toNat = 0 ∧ (t.ch.get c).fresh = false ∧
      (t.ch.get c).armed = false ∧ (t.ch.get c).line = s.pwmIn.get c) ∧
    t.mode = .undetermined ∧ t.len.val = 0 ∧
    t.cmdAngle = mid s.cfg ∧ t.cmdDir = .stop ∧ t.cmdValid = false ∧ t.cmdPending = false ∧
    t.curAngle = max s.cfg.domainMin (min s.cfg.domainMax (mid s.cfg + s.cfg.calOffset)) ∧
    t.curDir = .stop ∧ t.prevDir = .stop ∧ t.pendingDir = .stop ∧
    t.steerOutUs = steerPulse s.cfg t.curAngle ∧ t.driveOutUs = s.cfg.stopPulse ∧
    t.dwellActive = false ∧ t.dwellStartUs.toNat = 0 ∧
    t.indPos = false ∧ t.indNeg = false ∧ t.blinkState = false ∧ t.blinkLastUs.toNat = 0 ∧ t.nowUs.toNat = 0

/-- RESET changes neither the straps nor the pins, which are not the core's (R26, R29), nor the trace, the agenda and the
count of free turns, which is the model's choice (log 6). -/
def Obligations.ResetLeavesTheEnvironmentAlone : Prop :=
  ∀ s : State, ∃ t, exec .reset s = .next t ∧
    t.cfg = s.cfg ∧ t.pwmIn = s.pwmIn ∧ t.trace = s.trace ∧ t.agenda = s.agenda ∧ t.turn = s.turn

/-- R213: TICK adds to the counter modulo 2^32 and changes nothing else, and but for RESET no other operation changes the
counter. -/
def Obligations.TickAloneAdvancesTime : Prop :=
  (∀ (d : Nat) (s : State), ∃ t, exec (.tick d) s = .next t ∧
    t.nowUs.toNat = (s.nowUs.toNat + d) % 4294967296 ∧ t = { s with nowUs := t.nowUs }) ∧
  (∀ (i : Instr) (s t : State), exec i s = .next t → t.nowUs ≠ s.nowUs → i = .reset ∨ ∃ d, i = .tick d)

/-! ## Pulse capture -/

/-- R101: a rising edge stores the time and arms the channel; the width, the fresh flag, the stored level and
everything else stay. -/
def Obligations.RisingEdgeStoresTheTime : Prop :=
  ∀ (c : Channel) (s : State), ∃ t, exec (.pinRise c) s = .next t ∧
    (t.ch.get c).riseTsUs = s.nowUs ∧ (t.ch.get c).armed = true ∧
    t.ch.get c = { s.ch.get c with riseTsUs := (t.ch.get c).riseTsUs, armed := (t.ch.get c).armed } ∧
    (∀ c', c' ≠ c → t.ch.get c' = s.ch.get c') ∧ t = { s with ch := t.ch }

/-- R102, R103, R106: an armed falling edge stores the time since the rising edge, across the counter's wrap too, and
sets the fresh flag; an unarmed one changes nothing. -/
def Obligations.FallingEdgeMeasuresTheWidth : Prop :=
  ∀ (c : Channel) (s : State),
    ((s.ch.get c).armed = true → ∃ t, exec (.pinFall c) s = .next t ∧
      (t.ch.get c).latestWidthUs.toNat =
        (if (s.ch.get c).riseTsUs.toNat ≤ s.nowUs.toNat then s.nowUs.toNat - (s.ch.get c).riseTsUs.toNat
         else s.nowUs.toNat + 4294967296 - (s.ch.get c).riseTsUs.toNat) ∧
      (t.ch.get c).fresh = true ∧
      t.ch.get c = { s.ch.get c with latestWidthUs := (t.ch.get c).latestWidthUs, fresh := (t.ch.get c).fresh } ∧
      (∀ c', c' ≠ c → t.ch.get c' = s.ch.get c') ∧ t = { s with ch := t.ch }) ∧
    ((s.ch.get c).armed = false → exec (.pinFall c) s = .next s)

/-- R100: PIN puts the pin at its level and performs the case that the stored level selects, on the channel with the new
level stored. That the pin itself is kept beside the stored level is the model's (log 7). -/
def Obligations.PinPerformsTheCaseOfItsEdge : Prop :=
  ∀ (c : Channel) (v : Bool) (s : State), ∃ t, exec (.pin c v) s = .next t ∧
    exec (if v = (s.ch.get c).line then .pinSame c v else if v = true then .pinRise c else .pinFall c)
      { s with pwmIn := s.pwmIn.set c v, ch := s.ch.set c { s.ch.get c with line := v } } = .next t ∧
    (t.ch.get c).line = v ∧ t.pwmIn.get c = v ∧
    (∀ c', c' ≠ c → t.ch.get c' = s.ch.get c' ∧ t.pwmIn.get c' = s.pwmIn.get c') ∧
    t = { s with pwmIn := t.pwmIn, ch := t.ch }

/-- R107: SAMPLE returns the stored width, which stays readable, and clears the fresh flag and nothing else. -/
def Obligations.SampleReadsAndClearsFresh : Prop :=
  ∀ (c : Channel) (s : State), ∃ t, exec (.sample c) s = .next t ∧
    sample c s = ((s.ch.get c).latestWidthUs, t) ∧ (t.ch.get c).fresh = false ∧
    t.ch.get c = { s.ch.get c with fresh := (t.ch.get c).fresh } ∧
    (∀ c', c' ≠ c → t.ch.get c' = s.ch.get c') ∧ t = { s with ch := t.ch }

/-- R105: edge operations on different channels commute. -/
def Obligations.EdgesOfDifferentChannelsCommute : Prop :=
  ∀ (c c' : Channel) (v v' : Bool) (s : State), c ≠ c' →
    execAll [.pin c v, .pin c' v'] s = execAll [.pin c' v', .pin c v] s

/-- A high phase of `w` microseconds on a low pin is captured as `w` modulo 2^32 and is fresh, whatever its length
(R101, R102, R104, R106, R213). -/
def Obligations.HighPulseIsCapturedAsItsLength : Prop :=
  ∀ (c : Channel) (w : Nat) (s : State), (s.ch.get c).line = false →
    ∃ t, execAll [.pin c true, .tick w, .pin c false] s = .next t ∧
      (t.ch.get c).latestWidthUs.toNat = w % 4294967296 ∧ (t.ch.get c).fresh = true ∧ (t.ch.get c).armed = true ∧
      (t.ch.get c).line = false ∧ (t.ch.get c).riseTsUs = s.nowUs ∧
      (∀ c', c' ≠ c → t.ch.get c' = s.ch.get c') ∧
      t = { s with ch := t.ch, pwmIn := t.pwmIn, nowUs := t.nowUs }

/-! ## Line decoder -/

/-- RX.CR, LINE.EMPTY, a bare terminator and PIN.SAME change nothing (R100, R121, R122). -/
def Obligations.OperationsWithoutEffectChangeNothing : Prop :=
  ∀ s : State, exec .rxCr s = .next s ∧ exec .lineEmpty s = .next s ∧
    (∀ c v, exec (.pinSame c v) s = .next s) ∧ (s.len.val = 0 → exec .rxLf s = .next s)

/-- R123, one byte: it is stored at `buf[len]` while there is room; on a full buffer the line is dropped with it. -/
def Obligations.DataByteIsStoredOrEmptiesTheBuffer : Prop :=
  ∀ (b : Byte) (s : State),
    (s.len.val < 31 → ∃ t, exec (.rxData b) s = .next t ∧ t.len.val = s.len.val + 1 ∧
      lineText t = lineText s ++ [b] ∧ t.buf[s.len.val] = b ∧
      (∀ j : Fin 32, j ≠ s.len → t.buf[j.val] = s.buf[j.val]) ∧ t = { s with buf := t.buf, len := t.len }) ∧
    (s.len.val = 31 → ∃ t, exec (.rxData b) s = .next t ∧ t.len.val = 0 ∧ t = { s with len := t.len })

/-- LINE.OVERSIZE empties the buffer and leaves everything else; it is what RX.DATA does on a full buffer (R123). -/
def Obligations.OversizeDropsTheLine : Prop :=
  ∀ s : State,
    (∀ bytes, ∃ t, exec (.lineOversize bytes) s = .next t ∧ t.len.val = 0 ∧ t = { s with len := t.len }) ∧
    (∀ b, s.len.val = 31 → exec (.rxData b) s = exec (.lineOversize (lineText s ++ [b])) s)

/-- R123, any run: of `n` data bytes from an empty buffer the last `n mod 32` are left in it, and nothing but the buffer
changes. -/
def Obligations.LongRunKeepsItsTail : Prop :=
  ∀ (bytes : List Byte) (s : State), s.len.val = 0 →
    ∃ t, execAll (bytes.map .rxData) s = .next t ∧
      lineText t = bytes.drop (bytes.length - bytes.length % 32) ∧ t.len.val = bytes.length % 32 ∧
      t = { s with buf := t.buf, len := t.len }

/-- RX.LF on a non-empty line performs the FRAME operation the line decodes to, then empties the buffer (R78, R121,
R124). -/
def Obligations.LineFeedPerformsTheFrameOperation : Prop :=
  ∀ s : State, 0 < s.len.val →
    ∃ u, exec (decodeLine (lineText s)) s = .next u ∧ exec .rxLf s = .next { u with len := 0 }

/-- R124: what RX.LF delivers for a completed line, from the markers, the integer and the direction byte, and what it
leaves unchanged (R77, R121, R128). -/
def Obligations.CompletedLineDeliversItsCommand : Prop :=
  ∀ s : State, s.cfg.Valid → 0 < s.len.val → ∃ t, exec .rxLf s = .next t ∧ t.len.val = 0 ∧ t.cmdPending = true ∧
    (∀ e d v, findE (lineText s) = some e → findD (lineText s) = some d →
      parseInt ((lineText s).drop (e + 2)) = some v →
      t.cmdAngle = max s.cfg.domainMin (min s.cfg.domainMax v) ∧ t.cmdValid = true ∧
      t.cmdDir = (if (lineText s)[d + 2]? = some 0x46 then .forward
        else if (lineText s)[d + 2]? = some 0x42 then .backward else .stop)) ∧
    ((findE (lineText s) = none ∨ findD (lineText s) = none ∨
        ∃ e, findE (lineText s) = some e ∧ parseInt ((lineText s).drop (e + 2)) = none) →
      t.cmdAngle = mid s.cfg ∧ t.cmdDir = .stop ∧ t.cmdValid = false) ∧
    t.trace = s.trace ++ [.lineDecoded t.cmdAngle t.cmdDir t.cmdValid] ∧
    t = { s with len := t.len, cmdAngle := t.cmdAngle, cmdDir := t.cmdDir, cmdValid := t.cmdValid,
                 cmdPending := t.cmdPending, trace := t.trace }

/-- R129: the validity flag is true exactly when both markers were found and an integer was parsed. -/
def Obligations.ValidityFlagMeansMarkersAndInteger : Prop :=
  ∀ s : State, 0 < s.len.val → ∃ t, exec .rxLf s = .next t ∧
    (t.cmdValid = true ↔ (findD (lineText s)).isSome = true ∧
      ∃ e, findE (lineText s) = some e ∧ (parseInt ((lineText s).drop (e + 2))).isSome = true)

/-- LINE.NOMARK and LINE.BADINT deliver the fallback command (MID, Stop, invalid) and change nothing else (R126, R127,
R128). -/
def Obligations.BadFramesDeliverTheFallback : Prop :=
  ∀ (frame : List Byte) (s : State), ∃ t, exec (.lineNoMark frame) s = .next t ∧ exec (.lineBadInt frame) s = .next t ∧
    2 * t.cmdAngle ≤ s.cfg.domainMin + s.cfg.domainMax ∧ s.cfg.domainMin + s.cfg.domainMax < 2 * t.cmdAngle + 2 ∧
    t.cmdDir = .stop ∧ t.cmdValid = false ∧ t.cmdPending = true ∧
    t.trace = s.trace ++ [.lineDecoded t.cmdAngle .stop false] ∧
    t = { s with cmdAngle := t.cmdAngle, cmdDir := t.cmdDir, cmdValid := t.cmdValid, cmdPending := t.cmdPending,
                 trace := t.trace }

/-- CMD.F, CMD.B, CMD.S and CMD.X deliver the clamped angle, their direction and a true flag, and change nothing else
(R128, R130 to R133). -/
def Obligations.CommandFramesDeliverAngleAndDirection : Prop :=
  ∀ (v : Int) (c : Option Byte) (s : State), s.cfg.Valid →
    ∀ p ∈ [(Instr.cmdF v, Direction.forward), (.cmdB v, .backward), (.cmdS v, .stop), (.cmdX v c, .stop)],
      ∃ t, exec p.1 s = .next t ∧
        t.cmdAngle = max s.cfg.domainMin (min s.cfg.domainMax v) ∧ t.cmdDir = p.2 ∧ t.cmdValid = true ∧
        t.cmdPending = true ∧ t.trace = s.trace ++ [.lineDecoded t.cmdAngle p.2 true] ∧
        t = { s with cmdAngle := t.cmdAngle, cmdDir := t.cmdDir, cmdValid := t.cmdValid, cmdPending := t.cmdPending,
                     trace := t.trace }

/-- A line of the sender's grammar (R73, R82: an optional sign, digits, an optional space, LF or CR LF at the end, at most
31 bytes), received byte by byte on an empty buffer, delivers its command at the line feed, in every mode, and touches
nothing but the decoder's own state (R120 to R132). The bytes are the next stimuli on the agenda (log 1). -/
def Obligations.StreamedLineDeliversItsCommand : Prop :=
  ∀ (s : State) (sign digits sep ending line : List Byte) (rest : List Stimulus), s.cfg.Valid → s.len.val = 0 →
    sign ∈ [[], [0x2B], [0x2D]] → digits ≠ [] → (∀ b ∈ digits, 0x30 ≤ b.toNat ∧ b.toNat ≤ 0x39) →
    sep ∈ [[], [0x20]] → ending ∈ [[0x0A], [0x0D, 0x0A]] →
    ∀ p ∈ [((0x46 : Byte), Direction.forward), (0x42, .backward), (0x53, .stop)],
      line = [0x45, 0x3A] ++ sign ++ digits ++ sep ++ [0x44, 0x3A, p.1] → line.length ≤ 31 →
      s.agenda = (line ++ ending).map .byte ++ rest →
      ∃ (t : State) (n : Nat), Host.Core.run Sys2Proof.core (line ++ ending).length s = .next t ∧
        n = Nat.ofDigits 10 (digits.map (fun b => b.toNat - 0x30)).reverse ∧
        t.cmdAngle = max s.cfg.domainMin (min s.cfg.domainMax (if sign = [0x2D] then -(n : Int) else (n : Int))) ∧
        t.cmdDir = p.2 ∧ t.cmdValid = true ∧ t.cmdPending = true ∧ t.len.val = 0 ∧ t.agenda = rest ∧
        t.trace = s.trace ++ [.lineDecoded t.cmdAngle p.2 true] ∧
        t = { s with buf := t.buf, len := t.len, cmdAngle := t.cmdAngle, cmdDir := t.cmdDir, cmdValid := t.cmdValid,
                     cmdPending := t.cmdPending, trace := t.trace, agenda := t.agenda }

/-! ## Mode arbiter -/

/-- R151, R152, R153: with no fresh mode width nothing happens; a width of the current mode is only consumed; any other
performs STOPALL, changes the mode and announces it, in this order. During a dwell the stop is deferred (R173, branch
(a)) and writes no drive pulse. -/
def Obligations.ArbiterChangesModeThroughSafeStop : Prop :=
  ∀ s : State,
    ((s.ch.get .mode).fresh = false → exec .arbEval s = .next s) ∧
    (∀ m : ActiveMode, (s.ch.get .mode).fresh = true →
      m = (if (s.ch.get .mode).latestWidthUs.toNat ≤ 1500 then .auto else .manual) →
      ∃ t, exec .arbEval s = .next t ∧
        (∀ c, c ≠ .mode → t.ch.get c = s.ch.get c) ∧ t.ch.get .mode = { s.ch.get .mode with fresh := false } ∧
        t.mode = m.toMode ∧
        (m.toMode = s.mode → t = { s with ch := t.ch }) ∧
        (m.toMode ≠ s.mode →
          t.curAngle = calibrated s.cfg (mid s.cfg) ∧ t.steerOutUs = steerPulse s.cfg t.curAngle ∧
          t.curDir = .stop ∧ t.indPos = false ∧ t.indNeg = false ∧ t.cmdPending = false ∧
          (s.dwellActive = false → t.driveOutUs = s.cfg.stopPulse ∧ t.prevDir = .stop ∧ t.pendingDir = s.pendingDir ∧
            t.trace = s.trace ++
              [.steerWrite t.steerOutUs, .driveWrite s.cfg.stopPulse, .txLine (announcement m)]) ∧
          (s.dwellActive = true → t.driveOutUs = s.driveOutUs ∧ t.prevDir = s.prevDir ∧ t.pendingDir = .stop ∧
            t.trace = s.trace ++ [.steerWrite t.steerOutUs, .txLine (announcement m)]) ∧
          t = { s with ch := t.ch, mode := t.mode, cmdPending := t.cmdPending, curAngle := t.curAngle,
                       curDir := t.curDir, prevDir := t.prevDir, steerOutUs := t.steerOutUs,
                       driveOutUs := t.driveOutUs, pendingDir := t.pendingDir, indPos := t.indPos,
                       indNeg := t.indNeg, trace := t.trace }))

/-- R155: UNDET.HOLD writes neutral and stop and discards the pending command; the indicators, the mode and the channels
stay. During a dwell DRIVE.CMD would defer (R173), which is stated too. -/
def Obligations.UndeterminedHoldWritesNeutralAndStop : Prop :=
  ∀ s : State, ∃ t, exec .undetHold s = .next t ∧
    t.curAngle = calibrated s.cfg (mid s.cfg) ∧ t.steerOutUs = steerPulse s.cfg t.curAngle ∧ t.curDir = .stop ∧
    t.cmdPending = false ∧
    (s.dwellActive = false → t.driveOutUs = s.cfg.stopPulse ∧ t.prevDir = .stop ∧ t.pendingDir = s.pendingDir ∧
      t.trace = s.trace ++ [.steerWrite t.steerOutUs, .driveWrite s.cfg.stopPulse]) ∧
    (s.dwellActive = true → t.driveOutUs = s.driveOutUs ∧ t.prevDir = s.prevDir ∧ t.pendingDir = .stop ∧
      t.trace = s.trace ++ [.steerWrite t.steerOutUs]) ∧
    t = { s with cmdPending := t.cmdPending, curAngle := t.curAngle, curDir := t.curDir, prevDir := t.prevDir,
                 steerOutUs := t.steerOutUs, driveOutUs := t.driveOutUs, pendingDir := t.pendingDir, trace := t.trace }

/-- R80, R156: TX.MODE appends one line, `MODE:AUTO` or `MODE:MANUAL`, and sends its bytes followed by TX_EOL; nothing
else changes. -/
def Obligations.AnnouncementSendsTheExactLine : Prop :=
  ∀ s : State,
    (∃ t, exec (.txMode .auto) s = .next t ∧ t = { s with trace := t.trace } ∧
      t.trace = s.trace ++ [.txLine [0x4D, 0x4F, 0x44, 0x45, 0x3A, 0x41, 0x55, 0x54, 0x4F]] ∧
      t.txData = s.txData ++ [0x4D, 0x4F, 0x44, 0x45, 0x3A, 0x41, 0x55, 0x54, 0x4F] ++ s.cfg.txEol) ∧
    (∃ t, exec (.txMode .manual) s = .next t ∧ t = { s with trace := t.trace } ∧
      t.trace = s.trace ++ [.txLine [0x4D, 0x4F, 0x44, 0x45, 0x3A, 0x4D, 0x41, 0x4E, 0x55, 0x41, 0x4C]] ∧
      t.txData = s.txData ++ [0x4D, 0x4F, 0x44, 0x45, 0x3A, 0x4D, 0x41, 0x4E, 0x55, 0x41, 0x4C] ++ s.cfg.txEol)

/-! ## Output mapper -/

/-- R170: SteerPulse is exact at the two ends, within the output range, non-increasing, and strictly decreasing where the
output span is at least the domain span. -/
def Obligations.SteerPulseIsReversedAndBounded : Prop :=
  ∀ g : Config, g.Valid →
    steerPulse g g.domainMin = g.outputMax ∧ steerPulse g g.domainMax = g.outputMin ∧
    (∀ a, InDomain g a → g.outputMin ≤ steerPulse g a ∧ steerPulse g a ≤ g.outputMax ∧
      (g.outputMax - steerPulse g a) * (g.domainMax - g.domainMin) ≤
        (a - g.domainMin) * (g.outputMax - g.outputMin) ∧
      (a - g.domainMin) * (g.outputMax - g.outputMin) <
        (g.outputMax - steerPulse g a + 1) * (g.domainMax - g.domainMin)) ∧
    (∀ a b, a ≤ b → steerPulse g b ≤ steerPulse g a) ∧
    (g.domainMax - g.domainMin ≤ g.outputMax - g.outputMin → ∀ a b, a < b → steerPulse g b < steerPulse g a)

/-- R171: STEER.CMD adds the offset, clamps, keeps the angle and writes its pulse; nothing else changes. -/
def Obligations.SteerCommandWritesTheMappedPulse : Prop :=
  ∀ (angle : Int) (s : State), s.cfg.Valid → ∃ t, exec (.steerCmd angle) s = .next t ∧
    t.curAngle = max s.cfg.domainMin (min s.cfg.domainMax (angle + s.cfg.calOffset)) ∧
    t.steerOutUs = steerPulse s.cfg t.curAngle ∧ t.trace = s.trace ++ [.steerWrite t.steerOutUs] ∧
    t = { s with curAngle := t.curAngle, steerOutUs := t.steerOutUs, trace := t.trace }

/-- R172, R173: the three branches of DRIVE.CMD. -/
def Obligations.DriveCommandDefersDwellsOrWrites : Prop :=
  ∀ (d : Direction) (s : State), ∃ t, exec (.driveCmd d) s = .next t ∧ t.curDir = d ∧
    (s.dwellActive = true → t.pendingDir = d ∧ t = { s with curDir := t.curDir, pendingDir := t.pendingDir }) ∧
    (s.dwellActive = false →
      (d = .forward ∧ s.prevDir = .backward ∨ d = .backward ∧ s.prevDir = .forward) →
      t.driveOutUs = s.cfg.stopPulse ∧ t.dwellActive = true ∧ t.dwellStartUs = s.nowUs ∧ t.pendingDir = d ∧
      t.trace = s.trace ++ [.driveWrite s.cfg.stopPulse] ∧
      t = { s with curDir := t.curDir, driveOutUs := t.driveOutUs, dwellActive := t.dwellActive,
                   dwellStartUs := t.dwellStartUs, pendingDir := t.pendingDir, trace := t.trace }) ∧
    (s.dwellActive = false →
      ¬ (d = .forward ∧ s.prevDir = .backward ∨ d = .backward ∧ s.prevDir = .forward) →
      t.driveOutUs = (match d with
        | .stop => s.cfg.stopPulse
        | .forward => s.cfg.forwardPulse
        | .backward => s.cfg.reversePulse) ∧
      t.prevDir = d ∧ t.trace = s.trace ++ [.driveWrite t.driveOutUs] ∧
      t = { s with curDir := t.curDir, driveOutUs := t.driveOutUs, prevDir := t.prevDir, trace := t.trace })

/-- R174: DWELL.SERVICE ends a dwell that has lasted REVERSAL_DWELL_MS and writes the pending direction; otherwise it
changes nothing. -/
def Obligations.DwellServiceEndsAnExpiredDwell : Prop :=
  ∀ s : State,
    (s.dwellActive = true →
      s.cfg.reversalDwellMs * 1000 ≤
        (((s.nowUs.toNat + 4294967296 - s.dwellStartUs.toNat) % 4294967296 : Nat) : Int) →
      ∃ t, exec .dwellService s = .next t ∧ t.driveOutUs = drivePulse s.cfg s.pendingDir ∧
        t.prevDir = s.pendingDir ∧ t.dwellActive = false ∧ t.trace = s.trace ++ [.driveWrite t.driveOutUs] ∧
        t = { s with driveOutUs := t.driveOutUs, prevDir := t.prevDir, dwellActive := t.dwellActive,
                     trace := t.trace }) ∧
    (s.dwellActive = false ∨
        (((s.nowUs.toNat + 4294967296 - s.dwellStartUs.toNat) % 4294967296 : Nat) : Int) <
          s.cfg.reversalDwellMs * 1000 →
      exec .dwellService s = .next s)

/-- R214, R280: the comparison of a dwell is exact while main cycles come within CYCLE_PERIOD: if it was not over at `k`
microseconds, then at most CYCLE_PERIOD later DWELL.SERVICE ends it exactly when the true time has reached the dwell. -/
def Obligations.DwellComparisonIsExactWithinTheCyclePeriod : Prop :=
  ∀ (s : State) (k d : Nat), s.cfg.Valid → s.dwellActive = true → (k : Int) < s.cfg.reversalDwellMs * 1000 →
    d ≤ s.cfg.cyclePeriodUs → (s.cfg.cyclePeriodUs : Int) < 4294967296 - s.cfg.reversalDwellMs * 1000 →
    s.nowUs = s.dwellStartUs + BitVec.ofNat 32 (k + d) →
    ∃ t, exec .dwellService s = .next t ∧
      (t.dwellActive = false ↔ s.cfg.reversalDwellMs * 1000 ≤ ((k + d : Nat) : Int))

/-- R175: a reversal writes the Stop pulse once. Drive commands, passing time and dwell services after it write nothing as
long as the dwell is not served when it is over (no service at all, or the time they take stays below the dwell); the last
direction commanded is the one written, once, by the first service at or after the dwell's end, and not before. -/
def Obligations.ReversalWritesOneStopThenTheLastDirection : Prop :=
  ∀ (s : State) (d : Direction) (acts : List DwellAct) (k : Nat), s.cfg.Valid → s.dwellActive = false →
    (d = .forward ∧ s.prevDir = .backward ∨ d = .backward ∧ s.prevDir = .forward) →
    ((waited acts : Int) < s.cfg.reversalDwellMs * 1000 ∨ DwellAct.service ∉ acts) → waited acts + k < 4294967296 →
    ∃ t, execAll (.driveCmd d :: (acts.map DwellAct.instr ++ [.tick k, .dwellService])) s = .next t ∧
      (((waited acts + k : Nat) : Int) < s.cfg.reversalDwellMs * 1000 →
        t.trace = s.trace ++ [.driveWrite s.cfg.stopPulse] ∧ t.dwellActive = true ∧ t.prevDir = s.prevDir ∧
        t.driveOutUs = s.cfg.stopPulse ∧ t.pendingDir = lastCommand d acts ∧ t.dwellStartUs = s.nowUs) ∧
      (s.cfg.reversalDwellMs * 1000 ≤ ((waited acts + k : Nat) : Int) →
        t.trace = s.trace ++
          [.driveWrite s.cfg.stopPulse, .driveWrite (drivePulse s.cfg (lastCommand d acts))] ∧
        t.dwellActive = false ∧ t.prevDir = lastCommand d acts ∧
        t.driveOutUs = drivePulse s.cfg (lastCommand d acts))

/-- R183: the same command applied twice writes the same pulses both times, unless the first application left a dwell
running; then the second writes the same steering pulse, no drive pulse, and does not restart the dwell. -/
def Obligations.RepeatedCommandRepeatsItsPulses : Prop :=
  ∀ (a : Int) (d : Direction) (s : State), ∃ t u p,
    execAll [.steerCmd a, .driveCmd d] s = .next t ∧ execAll [.steerCmd a, .driveCmd d] t = .next u ∧
    u.steerOutUs = t.steerOutUs ∧ u.driveOutUs = t.driveOutUs ∧ u.dwellActive = t.dwellActive ∧
    u.dwellStartUs = t.dwellStartUs ∧ t.steerOutUs = p ∧
    (t.dwellActive = false → t.trace = s.trace ++ [.steerWrite p, .driveWrite t.driveOutUs] ∧
      u.trace = t.trace ++ [.steerWrite p, .driveWrite t.driveOutUs]) ∧
    (t.dwellActive = true → u.trace = t.trace ++ [.steerWrite p])

/-- R176: STOPALL, with no dwell running and during one. In a state of the invariant `drive_out_us` is STOP_PULSE after it in
both cases: during a dwell the output holds that pulse already. -/
def Obligations.StopAllForcesTheSafeOutputs : Prop :=
  ∀ s : State, ∃ t, exec .stopAll s = .next t ∧
    t.curAngle = calibrated s.cfg (mid s.cfg) ∧ t.steerOutUs = steerPulse s.cfg t.curAngle ∧ t.curDir = .stop ∧
    t.indPos = false ∧ t.indNeg = false ∧ t.cmdPending = false ∧
    (s.dwellActive = false → t.driveOutUs = s.cfg.stopPulse ∧ t.prevDir = .stop ∧ t.pendingDir = s.pendingDir ∧
      t.trace = s.trace ++ [.steerWrite t.steerOutUs, .driveWrite s.cfg.stopPulse]) ∧
    (s.dwellActive = true → t.driveOutUs = s.driveOutUs ∧ t.prevDir = s.prevDir ∧ t.pendingDir = .stop ∧
      t.trace = s.trace ++ [.steerWrite t.steerOutUs]) ∧
    (Inv s → t.driveOutUs = s.cfg.stopPulse) ∧
    t = { s with cmdPending := t.cmdPending, curAngle := t.curAngle, curDir := t.curDir, prevDir := t.prevDir,
                 steerOutUs := t.steerOutUs, driveOutUs := t.driveOutUs, pendingDir := t.pendingDir,
                 indPos := t.indPos, indNeg := t.indNeg, trace := t.trace }

/-- R181: AUTO.APPLY consumes the pending command and applies it, steering first; with none pending it changes
nothing. The command registers keep their values. -/
def Obligations.AutoApplyConsumesThePendingCommand : Prop :=
  ∀ s : State,
    (s.cmdPending = false → exec .autoApply s = .next s) ∧
    (s.cmdPending = true → ∃ t, exec .autoApply s = .next t ∧
      execAll [.steerCmd s.cmdAngle, .driveCmd s.cmdDir] { s with cmdPending := false } = .next t ∧
      t.curAngle = calibrated s.cfg s.cmdAngle ∧ t.steerOutUs = steerPulse s.cfg t.curAngle ∧ t.curDir = s.cmdDir ∧
      t.cmdPending = false ∧
      t = { s with cmdPending := t.cmdPending, curAngle := t.curAngle, curDir := t.curDir, prevDir := t.prevDir,
                   steerOutUs := t.steerOutUs, driveOutUs := t.driveOutUs, dwellActive := t.dwellActive,
                   dwellStartUs := t.dwellStartUs, pendingDir := t.pendingDir, trace := t.trace })

/-- R177: MANUAL.STEER passes a fresh width through, clamped to 1000 .. 2000; with none fresh the output holds. -/
def Obligations.ManualSteeringPassesTheClampedWidth : Prop :=
  ∀ s : State,
    ((s.ch.get .steer).fresh = false → exec .manualSteer s = .next s) ∧
    ((s.ch.get .steer).fresh = true → ∃ t, exec .manualSteer s = .next t ∧
      t.steerOutUs = max 1000 (min 2000 ((s.ch.get .steer).latestWidthUs.toNat : Int)) ∧
      t.trace = s.trace ++ [.steerWrite t.steerOutUs] ∧
      t.ch.get .steer = { s.ch.get .steer with fresh := false } ∧ (∀ c, c ≠ .steer → t.ch.get c = s.ch.get c) ∧
      t = { s with ch := t.ch, steerOutUs := t.steerOutUs, trace := t.trace })

/-- R178: MANUAL.DRIVE attenuates the deviation toward zero and clamps; it does nothing, and leaves the flag set, while a
dwell runs. -/
def Obligations.ManualDriveAttenuatesTheDeviation : Prop :=
  ∀ s : State, s.cfg.Valid →
    ((s.ch.get .throt).fresh = false ∨ s.dwellActive = true → exec .manualDrive s = .next s) ∧
    ((s.ch.get .throt).fresh = true → s.dwellActive = false → ∃ t, exec .manualDrive s = .next t ∧
      t.driveOutUs = max 1000 (min 2000 (1500 +
        Int.tdiv (((s.ch.get .throt).latestWidthUs.toNat : Int) - 1500) s.cfg.manualDivisor)) ∧
      t.trace = s.trace ++ [.driveWrite t.driveOutUs] ∧
      t.ch.get .throt = { s.ch.get .throt with fresh := false } ∧ (∀ c, c ≠ .throt → t.ch.get c = s.ch.get c) ∧
      t = { s with ch := t.ch, driveOutUs := t.driveOutUs, trace := t.trace })

/-- R186: a frame of an output pin is high for the register's value, then low to its end, when the value fits the period
(the model's view of the waveform, log 12). -/
def Obligations.OutputFrameIsHighForTheRegister : Prop :=
  ∀ (s : State) (p q : Nat),
    (s.steerOutUs = (p : Int) → p ≤ s.cfg.pwmPeriodUs →
      s.pwmOutSteer = List.replicate p true ++ List.replicate (s.cfg.pwmPeriodUs - p) false) ∧
    (s.driveOutUs = (q : Int) → q ≤ s.cfg.pwmPeriodUs →
      s.pwmOutDrive = List.replicate q true ++ List.replicate (s.cfg.pwmPeriodUs - q) false)

/-! ## Indicator -/

/-- R200: IND.UPDATE. Inside the deadband, its edges included, both indicators go off and the phase is kept; outside, a
due toggle is made and the indicator of the sign shows the phase while the other is off. -/
def Obligations.IndicatorBlinksOutsideTheDeadband : Prop :=
  ∀ (s : State) (dev : Int), dev = ((s.ch.get .steer).latestWidthUs.toNat : Int) - 1500 →
    ∃ t, exec .indUpdate s = .next t ∧
      (-100 ≤ dev → dev ≤ 100 → t = { s with indPos := false, indNeg := false }) ∧
      (dev < -100 ∨ 100 < dev →
        (200000 ≤ (s.nowUs.toNat + 4294967296 - s.blinkLastUs.toNat) % 4294967296 →
          t.blinkState = !s.blinkState ∧ t.blinkLastUs = s.nowUs) ∧
        ((s.nowUs.toNat + 4294967296 - s.blinkLastUs.toNat) % 4294967296 < 200000 →
          t.blinkState = s.blinkState ∧ t.blinkLastUs = s.blinkLastUs)) ∧
      (100 < dev → t.indPos = t.blinkState ∧ t.indNeg = false) ∧
      (dev < -100 → t.indNeg = t.blinkState ∧ t.indPos = false) ∧
      t = { s with indPos := t.indPos, indNeg := t.indNeg, blinkState := t.blinkState, blinkLastUs := t.blinkLastUs }

/-- R201: but for RESET the toggle phase changes only in a Manual-mode CYCLE, outside the deadband, when a toggle is
due. -/
def Obligations.TogglePhaseIsKeptElsewhere : Prop :=
  ∀ s t : State, step s = .next t → (fetch s).1 ≠ .event .reset →
    (t.blinkState ≠ s.blinkState ∨ t.blinkLastUs ≠ s.blinkLastUs) →
    (fetch s).1 = .event .cycle ∧ s.mode = .manual ∧
      (1600 < (s.ch.get .steer).latestWidthUs.toNat ∨ (s.ch.get .steer).latestWidthUs.toNat < 1400) ∧
      200000 ≤ (s.nowUs.toNat + 4294967296 - s.blinkLastUs.toNat) % 4294967296

/-! ## Main cycle and whole-machine rules -/

/-- R210, R212: CYCLE is its phases, in order, as the operations' own meanings; a transition cycle runs no handler and no
indicator update. -/
def Obligations.CycleRunsItsPhasesInOrder : Prop :=
  ∀ s : State, ∃ a t, exec .arbEval s = .next a ∧ exec .cycle s = .next t ∧
    (a.mode ≠ s.mode → exec .dwellService a = .next t) ∧
    (a.mode = s.mode → s.mode = .undetermined → execAll [.undetHold, .dwellService] a = .next t) ∧
    (a.mode = s.mode → s.mode = .auto → execAll [.autoApply, .dwellService] a = .next t) ∧
    (a.mode = s.mode → s.mode = .manual → ∃ m, execAll [.manualSteer, .manualDrive] a = .next m ∧
      execAll [.dwellService, .indUpdate] { m with cmdPending := false } = .next t)

/-- R158: a step that changes the mode ends in the safe stop. -/
def Obligations.ModeChangeEndsInSafeStop : Prop :=
  ∀ s t : State, Inv s → step s = .next t → t.mode ≠ s.mode → SafeStop t

/-- The trace only grows (R9), and its outbound lines are exactly the announcements of the mode changes, once each
(R156). That RESET keeps the trace is the model's choice (log 6). -/
def Obligations.EachModeChangeIsAnnouncedOnce : Prop :=
  ∀ s t : State, step s = .next t → ∃ es, t.trace = s.trace ++ es ∧
    (t.mode = s.mode ∨ t.mode = .undetermined → txLines es = []) ∧
    (∀ m : ActiveMode, t.mode ≠ s.mode → t.mode = m.toMode → txLines es = [announcement m])

/-- R154: no operation but RESET enters Undetermined; and while the mode channel brings nothing new, a CYCLE leaves the
mode where it is. -/
def Obligations.UndeterminedIsEnteredByResetAlone : Prop :=
  (∀ (i : Instr) (s t : State), exec i s = .next t → t.mode = .undetermined →
    i = .reset ∨ s.mode = .undetermined) ∧
  (∀ s : State, (s.ch.get .mode).fresh = false → ∃ t, exec .cycle s = .next t ∧ t.mode = s.mode)

/-- R29: every element has one writing agent, seen in one step of each agent. -/
def Obligations.EveryElementHasOneWriter : Prop :=
  ∀ (s t : State) (x : Stimulus) (rest : List Stimulus), s.agenda = x :: rest → step s = .next t →
    (∀ b, x = .byte b →
      t = { s with agenda := rest, buf := t.buf, len := t.len, cmdAngle := t.cmdAngle, cmdDir := t.cmdDir,
                   cmdValid := t.cmdValid, cmdPending := t.cmdPending, trace := t.trace } ∧
      (s.cmdPending = true → t.cmdPending = true)) ∧
    (∀ c v ch, x = .event (.pin c v) → channelOfCode c = some ch →
      t = { s with agenda := rest, pwmIn := t.pwmIn, ch := t.ch } ∧ (∀ c', c' ≠ ch → t.ch.get c' = s.ch.get c') ∧
      ((s.ch.get ch).fresh = true → (t.ch.get ch).fresh = true)) ∧
    (∀ d, x = .event (.tick d) → t = { s with agenda := rest, nowUs := t.nowUs }) ∧
    (x = .event .cycle →
      t = { s with agenda := rest, ch := t.ch, mode := t.mode, cmdPending := t.cmdPending, curAngle := t.curAngle,
                   curDir := t.curDir, prevDir := t.prevDir, steerOutUs := t.steerOutUs, driveOutUs := t.driveOutUs,
                   dwellActive := t.dwellActive, dwellStartUs := t.dwellStartUs, pendingDir := t.pendingDir,
                   indPos := t.indPos, indNeg := t.indNeg, blinkState := t.blinkState, blinkLastUs := t.blinkLastUs,
                   trace := t.trace } ∧
      (∀ c, t.ch.get c = { s.ch.get c with fresh := (t.ch.get c).fresh } ∧
        ((t.ch.get c).fresh = true → (s.ch.get c).fresh = true)) ∧
      (t.cmdPending = true → s.cmdPending = true))

/-- R26: no operation writes the configuration. -/
def Obligations.NoOperationWritesTheConfiguration : Prop :=
  ∀ (i : Instr) (s t : State), exec i s = .next t → t.cfg = s.cfg

/-- R17: no rule reads the bytes of the buffer from `len` on: two states that differ only there step alike and still
differ only there. This holds whatever those bytes are, so nothing rests on the value named at reset (log 5). -/
def Obligations.BytesBeyondLenAreNeverRead : Prop :=
  ∀ (s : State) (other : Vector Byte 32), (∀ j : Fin 32, j.val < s.len.val → other[j.val] = s.buf[j.val]) →
    (∀ t, step s = .next t → ∃ t', step { s with buf := other } = .next t' ∧
      t' = { t with buf := t'.buf } ∧ ∀ j : Fin 32, j.val < t.len.val → t'.buf[j.val] = t.buf[j.val]) ∧
    (∀ r, step s = .refused r → step { s with buf := other } = .refused r)

/-- R174: nothing ends a dwell but its expiry in a CYCLE, and RESET. -/
def Obligations.DwellEndsOnlyByExpiryOrReset : Prop :=
  ∀ s t : State, step s = .next t → s.dwellActive = true → t.dwellActive = false →
    (fetch s).1 = .event .reset ∨
    ((fetch s).1 = .event .cycle ∧
      s.cfg.reversalDwellMs * 1000 ≤ (((s.nowUs.toNat + 4294967296 - s.dwellStartUs.toNat) % 4294967296 : Nat) : Int))

/-- R216: outside Auto mode a CYCLE does the same whatever command is held, and leaves none pending. -/
def Obligations.CommandsOutsideAutoMoveNothing : Prop :=
  ∀ (s : State) (a : Int) (d : Direction) (v p : Bool), s.mode ≠ .auto →
    ∃ t, exec .cycle s = .next t ∧ t.cmdPending = false ∧
      exec .cycle { s with cmdAngle := a, cmdDir := d, cmdValid := v, cmdPending := p } =
        .next { t with cmdAngle := a, cmdDir := d, cmdValid := v }

/-- R262, R155: in a state of the invariant whose mode is Undetermined and whose mode channel has nothing new, a CYCLE
writes the neutral steering pulse and STOP_PULSE, discards the pending command and changes nothing else. -/
def Obligations.UndeterminedCycleWritesNeutralAndStop : Prop :=
  ∀ s : State, Inv s → s.mode = .undetermined → (s.ch.get .mode).fresh = false →
    ∃ t, exec .cycle s = .next t ∧
      t.trace = s.trace ++ [.steerWrite (neutralPulse s.cfg), .driveWrite s.cfg.stopPulse] ∧
      t.cmdPending = false ∧ t.mode = .undetermined ∧
      t = { s with cmdPending := t.cmdPending, trace := t.trace }

/-- R262: whatever the agents do, from every state of the invariant whose mode is Undetermined a step either stays
Undetermined with the actuators at neutral and stop and no line sent, or is the CYCLE that consumes a captured mode width
and ends in the safe stop, in the mode of that width. -/
def Obligations.UndeterminedEndsOnlyByACapturedModeWidth : Prop :=
  ∀ s t : State, Inv s → s.mode = .undetermined → step s = .next t →
    (t.mode = .undetermined ∧ t.steerOutUs = neutralPulse t.cfg ∧ t.driveOutUs = t.cfg.stopPulse ∧
      t.curDir = .stop ∧ ∃ es, t.trace = s.trace ++ es ∧ txLines es = []) ∨
    ((fetch s).1 = .event .cycle ∧ (s.ch.get .mode).fresh = true ∧ (s.ch.get .mode).armed = true ∧ SafeStop t ∧
      t.mode = (if (s.ch.get .mode).latestWidthUs.toNat ≤ 1500 then .auto else .manual))

/-- The invariant of the core holds after reset, in every accepted configuration and with the pins at any levels
(R30). -/
def Obligations.InvariantHoldsAtReset : Prop :=
  ∀ (g : Config) (pins : PerChannel Bool), g.Valid → Inv (State.resetOf g pins)

/-- Every step keeps the invariant of the core, from every state that has it (R13 to R15, R19, R21, R79, R155, R173,
R174, R179, R182, R200, R202). -/
def Obligations.EveryStepKeepsTheInvariant : Prop :=
  ∀ s t : State, Inv s → step s = .next t → Inv t

/-- The diagnostic taps show the state (R27) and never code 3 (R10); the 16-bit angle is exact when the domain fits 16
bits, in two's complement (log 13). -/
def Obligations.DiagnosticTapsCopyTheState : Prop :=
  ∀ s : State,
    s.dbgMode.toNat = (match s.mode with | .undetermined => 0 | .manual => 1 | .auto => 2) ∧
    s.dbgCmdDir.toNat = (match s.cmdDir with | .stop => 0 | .forward => 1 | .backward => 2) ∧
    s.dbgCmdValid.toNat = s.cmdValid.toNat ∧
    (Inv s → -32768 ≤ s.cfg.domainMin → s.cfg.domainMax ≤ 32767 → s.dbgCmdAngle.toInt = s.cmdAngle)
end

