-- ==== Sys2Proof/Laws/Decode.lean ====
section
/-! SUPPORT. Lemmas about the decoder and the encoder: codes, markers, decimal text. -/

namespace Sys2Proof

/-! ## Codes -/

@[simp] theorem channelOfCode_code (c : Channel) : channelOfCode (channelCode c) = some c := by cases c <;> rfl

@[simp] theorem activeModeOfCode_code (m : ActiveMode) : activeModeOfCode (modeCode m.toMode) = some m := by
  cases m <;> rfl

@[simp] theorem directionOfCode_code (d : Direction) : directionOfCode (directionCode d) = some d := by
  cases d <;> rfl

@[simp] theorem levelOf_code (v : Bool) : levelOf (levelCode v) = v := by cases v <;> rfl

/-! ## Digits -/

theorem digitByte_toNat {d : Nat} (h : d < 10) : (digitByte d).toNat = 0x30 + d := by
  simp only [digitByte, BitVec.toNat_ofNat]
  omega

theorem isDigit_digitByte {d : Nat} (h : d < 10) : isDigit (digitByte d) = true := by
  simp [isDigit, digitByte_toNat h]
  omega

theorem decimal_all_digits (fuel n : Nat) : ∀ b ∈ decimal fuel n, isDigit b = true := by
  induction fuel generalizing n with
  | zero => simp [decimal]
  | succ f ih =>
    intro b hb
    unfold decimal at hb
    split at hb
    · simp only [List.mem_singleton] at hb
      subst hb
      exact isDigit_digitByte (by omega)
    · simp only [List.mem_append, List.mem_singleton] at hb
      rcases hb with hb | rfl
      · exact ih _ _ hb
      · exact isDigit_digitByte (Nat.mod_lt _ (by omega))

theorem decimal_ne_nil (fuel n : Nat) : decimal (fuel + 1) n ≠ [] := by
  unfold decimal
  split <;> simp

theorem digitsValue_append_digit (ds : List Byte) {d : Nat} (h : d < 10) :
    digitsValue (ds ++ [digitByte d]) = 10 * digitsValue ds + d := by
  simp [digitsValue, List.foldl_append, digitByte_toNat h]

theorem digitsValue_decimal (fuel n : Nat) (h : n < 10 ^ fuel) : digitsValue (decimal fuel n) = n := by
  induction fuel generalizing n with
  | zero =>
    have : n = 0 := by simpa using h
    subst this
    rfl
  | succ f ih =>
    unfold decimal
    split
    · rename_i h10
      simp [digitsValue, digitByte_toNat h10]
    · rw [digitsValue_append_digit _ (Nat.mod_lt _ (by omega)), ih _ (by rw [pow_succ] at h; omega)]
      omega

theorem decimal_length_le (fuel n k : Nat) (h : n < 10 ^ k) (hk : 1 ≤ k) : (decimal fuel n).length ≤ k := by
  induction fuel generalizing n k with
  | zero => simp [decimal]
  | succ f ih =>
    unfold decimal
    split
    · simpa using hk
    · rename_i h10
      obtain ⟨j, rfl⟩ : ∃ j, k = j + 1 := ⟨k - 1, by omega⟩
      have hj : 1 ≤ j := by
        rcases Nat.eq_zero_or_pos j with rfl | hj
        · simp at h
          omega
        · exact hj
      have := ih (n / 10) j (by rw [pow_succ] at h; omega) hj
      simp
      omega

/-! ## ParseInt -/

theorem parseDigits_run (ds rest : List Byte) (h : ds ≠ []) (hd : ∀ b ∈ ds, isDigit b = true)
    (hr : ∀ b, rest.head? = some b → isDigit b = false) : parseDigits (ds ++ rest) = some (digitsValue ds) := by
  have ht : (ds ++ rest).takeWhile isDigit = ds := by
    rw [List.takeWhile_append_of_pos hd]
    cases rest with
    | nil => simp
    | cons b r => simp [hr b rfl]
  simp [parseDigits, ht, h]

theorem parseDigits_none (rest : List Byte) (hr : ∀ b, rest.head? = some b → isDigit b = false) :
    parseDigits rest = none := by
  cases rest with
  | nil => rfl
  | cons b r => simp [parseDigits, hr b rfl]

theorem isDigit_ne_sign {b : Byte} (h : isDigit b = true) : b ≠ chMinus ∧ b ≠ chPlus := by
  constructor <;> rintro rfl <;> exact absurd h (by decide)

/-- An unsigned run of digits is read as its value. -/
theorem parseInt_run (ds rest : List Byte) (h : ds ≠ []) (hd : ∀ b ∈ ds, isDigit b = true)
    (hr : ∀ b, rest.head? = some b → isDigit b = false) :
    parseInt (ds ++ rest) = some ((digitsValue ds : Nat) : Int) := by
  have hp := parseDigits_run ds rest h hd hr
  cases ds with
  | nil => exact absurd rfl h
  | cons b r =>
    have hs := isDigit_ne_sign (hd b (by simp))
    simp only [List.cons_append] at hp ⊢
    simp [parseInt, hs, hp]

/-- A rendered integer is read back. -/
theorem parseInt_renderInt (v : Int) (rest : List Byte) (hv : v.natAbs < 10 ^ lineMax)
    (hr : ∀ b, rest.head? = some b → isDigit b = false) : parseInt (renderInt v ++ rest) = some v := by
  have hne := decimal_ne_nil 30 v.natAbs
  have hd := decimal_all_digits 31 v.natAbs
  have hval := digitsValue_decimal 31 v.natAbs hv
  unfold renderInt
  split
  · rename_i hneg
    simp only [List.cons_append, parseInt, if_true, lineMax]
    rw [parseDigits_run _ _ hne hd hr, hval, Option.map_some]
    congr 1
    omega
  · simp only [lineMax]
    rw [parseInt_run _ _ hne hd hr, hval]
    congr 1
    omega

/-! ## Markers -/

theorem find_cons_pos (a b : Byte) (rest : List Byte) : find a b (a :: b :: rest) = some 0 := by simp [find]

theorem find_cons_neg {a b x : Byte} (y : Byte) (rest : List Byte) (h : ¬ (x = a ∧ y = b)) :
    find a b (x :: y :: rest) = (find a b (y :: rest)).map (· + 1) := by simp [find, h]

/-- A prefix in which the marker's first byte does not occur only shifts the index. -/
theorem find_append_left (a b : Byte) (p rest : List Byte) (h : ∀ x ∈ p, x ≠ a) :
    find a b (p ++ rest) = (find a b rest).map (· + p.length) := by
  induction p with
  | nil => simp
  | cons x p ih =>
    have ih := ih (fun y hy => h y (by simp [hy]))
    have hx : x ≠ a := h x (by simp)
    have key : find a b (x :: (p ++ rest)) = (find a b (p ++ rest)).map (· + 1) := by
      cases hpr : p ++ rest with
      | nil => simp [find]
      | cons y ys => exact find_cons_neg _ _ (by simp [hx])
    rw [List.cons_append, key, ih, Option.map_map]
    congr 1

theorem isDigit_ne_of_not {b x : Byte} (h : isDigit b = true) (hx : isDigit x = false) : b ≠ x := by
  rintro rfl
  simp [h] at hx

theorem mem_renderInt {v : Int} {b : Byte} (h : b ∈ renderInt v) : b = chMinus ∨ isDigit b = true := by
  unfold renderInt at h
  split at h
  · rcases List.mem_cons.mp h with h | h
    · exact Or.inl h
    · exact Or.inr (decimal_all_digits _ _ _ h)
  · exact Or.inr (decimal_all_digits _ _ _ h)

theorem renderInt_no {v : Int} {x : Byte} (hx : isDigit x = false) (hm : x ≠ chMinus) : ∀ b ∈ renderInt v, b ≠ x := by
  intro b hb
  rcases mem_renderInt hb with rfl | hd
  · exact fun h => hm h.symm
  · exact isDigit_ne_of_not hd hx

theorem intFits_iff {v : Int} {k : Nat} (h : intFits k v = true) :
    (0 ≤ v → v.natAbs < 10 ^ k) ∧ (v < 0 → v.natAbs < 10 ^ (k - 1)) := by
  simp only [intFits, Bool.and_eq_true, decide_eq_true_eq] at h
  have e1 : ((10 ^ k : Nat) : Int) = (10 : Int) ^ k := by norm_cast
  have e2 : ((10 ^ (k - 1) : Nat) : Int) = (10 : Int) ^ (k - 1) := by norm_cast
  rw [← e1, ← e2] at h
  generalize 10 ^ k = m at *
  generalize 10 ^ (k - 1) = n at *
  omega

theorem renderInt_length_le (v : Int) (k : Nat) (hk : 2 ≤ k) (h : intFits k v = true) : (renderInt v).length ≤ k := by
  obtain ⟨h1, h2⟩ := intFits_iff h
  unfold renderInt
  split
  · rename_i hv
    have := decimal_length_le lineMax v.natAbs (k - 1) (h2 hv) (by omega)
    simp
    omega
  · rename_i hv
    exact decimal_length_le lineMax v.natAbs k (h1 (by omega)) (by omega)

theorem natAbs_lt_of_intFits {v : Int} {k : Nat} (hk : k ≤ 31) (h : intFits k v = true) : v.natAbs < 10 ^ lineMax := by
  obtain ⟨h1, h2⟩ := intFits_iff h
  rcases Int.lt_or_le v 0 with hv | hv
  · exact lt_of_lt_of_le (h2 hv) (Nat.pow_le_pow_right (by omega) (by simp [lineMax]; omega))
  · exact lt_of_lt_of_le (h1 hv) (Nat.pow_le_pow_right (by omega) hk)

/-- The fields of a text `E:`, integer, separator, `D:`, direction bytes, where the separator is empty or one space. -/
theorem decodeLine_fields (v : Int) (sep dir : List Byte) (hv : v.natAbs < 10 ^ lineMax)
    (hs : sep = [] ∨ sep = [chSpace]) :
    decodeLine ([chE, chColon] ++ renderInt v ++ sep ++ ([chD, chColon] ++ dir)) =
      if dir.head? = some chF then .cmdF v
      else if dir.head? = some chB then .cmdB v
      else if dir.head? = some chS then .cmdS v
      else .cmdX v dir.head? := by
  have he : findE ([chE, chColon] ++ renderInt v ++ sep ++ ([chD, chColon] ++ dir)) = some 0 := by
    simp [findE, find]
  have hsep : ∀ x ∈ sep, x ≠ chD := by
    rcases hs with rfl | rfl
    · simp
    · simp
      decide
  have hd : findD ([chE, chColon] ++ renderInt v ++ sep ++ ([chD, chColon] ++ dir)) =
      some (2 + (renderInt v).length + sep.length) := by
    rw [findD, find_append_left]
    · simp [find]
      omega
    · intro x hx
      simp only [List.mem_append, List.mem_cons, List.not_mem_nil, or_false] at hx
      rcases hx with ((rfl | rfl) | hx) | hx
      · decide
      · decide
      · exact renderInt_no (by decide) (by decide) x hx
      · exact hsep x hx
  have hp : parseInt (([chE, chColon] ++ renderInt v ++ sep ++ ([chD, chColon] ++ dir)).drop (0 + 2)) = some v := by
    have : ([chE, chColon] ++ renderInt v ++ sep ++ ([chD, chColon] ++ dir)).drop (0 + 2) =
        renderInt v ++ (sep ++ ([chD, chColon] ++ dir)) := by simp
    rw [this]
    refine parseInt_renderInt v _ hv ?_
    rcases hs with rfl | rfl <;> simp [isDigit, chD, chSpace]
  have hq : ([chE, chColon] ++ renderInt v ++ sep ++ ([chD, chColon] ++ dir))[2 + (renderInt v).length + sep.length + 2]?
      = dir.head? := by
    rw [List.getElem?_append_right (by simp)]
    have : 2 + (renderInt v).length + sep.length + 2 - ([chE, chColon] ++ renderInt v ++ sep).length = 2 := by
      simp
      omega
    rw [this]
    cases dir <;> simp
  simp only [decodeLine, he, hd, hp, hq]

/-- `D:E:` and an integer: the direction byte is the `E`. -/
theorem decodeLine_swapped (v : Int) (hv : v.natAbs < 10 ^ lineMax) :
    decodeLine ([chD, chColon] ++ [chE, chColon] ++ renderInt v) = .cmdX v (some chE) := by
  have he : findE ([chD, chColon] ++ [chE, chColon] ++ renderInt v) = some 2 := by
    simp [findE, find]
    decide
  have hd : findD ([chD, chColon] ++ [chE, chColon] ++ renderInt v) = some 0 := by simp [findD, find]
  have hp : parseInt (([chD, chColon] ++ [chE, chColon] ++ renderInt v).drop (2 + 2)) = some v := by
    have := parseInt_renderInt v [] hv (by simp)
    simpa using this
  simp only [decodeLine, he, hd, hp]
  simp [chE, chF, chB, chS]

/-! ## Frames -/

theorem dataByte_ne {b : Byte} (h : isDataByte b = true) : b ≠ chLF ∧ b ≠ chCR := by
  simpa [isDataByte] using h

theorem filter_of_data {s : List Byte} (h : ∀ b ∈ s, isDataByte b = true) : s.filter (· ≠ chCR) = s := by
  rw [List.filter_eq_self]
  intro b hb
  simpa using (dataByte_ne (h b hb)).2

theorem takeWhile_of_data {s : List Byte} (rest : List Byte) (h : ∀ b ∈ s, isDataByte b = true) :
    (s ++ rest).takeWhile (· ≠ chLF) = s ++ rest.takeWhile (· ≠ chLF) :=
  List.takeWhile_append_of_pos (fun b hb => by simpa using (dataByte_ne (h b hb)).1)

theorem dropWhile_of_data {s : List Byte} (rest : List Byte) (h : ∀ b ∈ s, isDataByte b = true) :
    (s ++ rest).dropWhile (· ≠ chLF) = rest.dropWhile (· ≠ chLF) :=
  List.dropWhile_append_of_pos (fun b hb => by simpa using (dataByte_ne (h b hb)).1)

/-- A frame's data bytes with their terminator are decoded as the line. -/
theorem decodeFrame_line {s : List Byte} (h : isFrameText s = true) : decodeFrame (s ++ [chLF]) = .ok (decodeLine s) := by
  simp only [isFrameText, Bool.and_eq_true, decide_eq_true_eq, List.all_eq_true] at h
  obtain ⟨⟨h1, h2⟩, h3⟩ := h
  have hf : (s ++ [chLF]).filter (· ≠ chCR) = s ++ [chLF] := by
    rw [List.filter_append, filter_of_data h3]
    rfl
  have hne : s ≠ [] := by
    rintro rfl
    simp at h1
  simp only [decodeFrame, hf]
  rw [takeWhile_of_data _ h3, dropWhile_of_data _ h3]
  simp [hne, h2]

/-- 32 data bytes with no terminator are LINE.OVERSIZE. -/
theorem decodeFrame_oversize {s : List Byte} (hl : s.length = lineCap) (h : ∀ b ∈ s, isDataByte b = true) :
    decodeFrame s = .ok (.lineOversize s) := by
  have ht := takeWhile_of_data [] h
  have hd := dropWhile_of_data [] h
  simp only [List.append_nil, List.takeWhile_nil, List.dropWhile_nil] at ht hd
  simp only [decodeFrame, filter_of_data h]
  rw [ht, hd]
  simp [hl]

theorem isDataByte_of_digit {b : Byte} (h : isDigit b = true) : isDataByte b = true := by
  simp only [isDataByte, Bool.and_eq_true, decide_eq_true_eq, ne_eq]
  constructor <;> rintro rfl <;> exact absurd h (by decide)

theorem renderInt_data {v : Int} : ∀ b ∈ renderInt v, isDataByte b = true := by
  intro b hb
  rcases mem_renderInt hb with rfl | hd
  · decide
  · exact isDataByte_of_digit hd

/-- A sender's line is a frame and decodes to its fields. -/
theorem decode_commandText (v : Int) (dir : List Byte) (hv : v.natAbs < 10 ^ lineMax)
    (hl : (renderInt v).length + 4 + dir.length ≤ lineMax) (hd : ∀ b ∈ dir, isDataByte b = true) :
    decodeFrame (commandText v dir ++ [chLF]) = .ok (
      if dir.head? = some chF then .cmdF v
      else if dir.head? = some chB then .cmdB v
      else if dir.head? = some chS then .cmdS v
      else .cmdX v dir.head?) := by
  have hE : isDataByte chE = true := by decide
  have hC : isDataByte chColon = true := by decide
  have hD : isDataByte chD = true := by decide
  have hS : isDataByte chSpace = true := by decide
  have hr := renderInt_data (v := v)
  have key : ∃ sep, (sep = [] ∨ sep = [chSpace]) ∧
      commandText v dir = [chE, chColon] ++ renderInt v ++ sep ++ ([chD, chColon] ++ dir) ∧
      ([chE, chColon] ++ renderInt v ++ sep ++ ([chD, chColon] ++ dir)).length ≤ lineMax := by
    by_cases hlt : ([chE, chColon] ++ renderInt v ++ ([chD, chColon] ++ dir)).length < lineMax
    · refine ⟨[chSpace], Or.inr rfl, by simp only [commandText]; rw [if_pos hlt], ?_⟩
      simp at hlt ⊢
      omega
    · refine ⟨[], Or.inl rfl, by simp only [commandText]; rw [if_neg hlt]; simp, ?_⟩
      simp at hl ⊢
      omega
  obtain ⟨sep, hsep, htext, hlen⟩ := key
  rw [htext, decodeFrame_line, decodeLine_fields v sep dir hv hsep]
  simp only [isFrameText, Bool.and_eq_true, decide_eq_true_eq, List.all_eq_true]
  refine ⟨⟨by simp, hlen⟩, ?_⟩
  intro b hb
  simp only [List.mem_append, List.mem_cons, List.not_mem_nil, or_false] at hb
  rcases hb with (((rfl | rfl) | hb) | hb) | ((rfl | rfl) | hb)
  · exact hE
  · exact hC
  · exact hr b hb
  · rcases hsep with rfl | rfl
    · simp at hb
    · simp at hb
      subst hb
      exact hS
  · exact hD
  · exact hC
  · exact hd b hb

/-- The four command forms but the swapped one, whose integer and direction byte fit the line. -/
theorem decode_command (v : Int) (dir : List Byte) (k : Nat) (hk : 2 ≤ k) (hv : intFits k v = true)
    (hl : k + 4 + dir.length ≤ lineMax) (hd : ∀ b ∈ dir, isDataByte b = true) :
    decode (.frame (commandText v dir ++ [chLF])) = .ok (
      if dir.head? = some chF then .cmdF v
      else if dir.head? = some chB then .cmdB v
      else if dir.head? = some chS then .cmdS v
      else .cmdX v dir.head?) := by
  have h31 : k ≤ 31 := by simp only [lineMax] at hl; omega
  have := renderInt_length_le v k hk hv
  exact decode_commandText v dir (natAbs_lt_of_intFits h31 hv) (by omega) hd

end Sys2Proof
end

