-- ==== Sys2Proof/Laws/State.lean ====
section
/-! SUPPORT. One lemma per field for each unconditional update of the state, true by unfolding. -/

namespace Sys2Proof.Machine

@[simp] theorem PerChannel.get_set {α : Type} (p : PerChannel α) (c : Channel) (x : α) :
    (p.set c x).get c = x := by cases c <;> rfl

@[simp] theorem PerChannel.get_set_ne {α : Type} (p : PerChannel α) {c c' : Channel} (x : α) (h : c' ≠ c) :
    (p.set c x).get c' = p.get c' := by cases c <;> cases c' <;> simp_all [PerChannel.set, PerChannel.get]

@[simp] theorem PerChannel.set_get {α : Type} (p : PerChannel α) (c : Channel) : p.set c (p.get c) = p := by
  cases c <;> rfl

@[simp] theorem PerChannel.set_set {α : Type} (p : PerChannel α) (c : Channel) (x y : α) :
    (p.set c x).set c y = p.set c y := by cases c <;> rfl

theorem PerChannel.set_comm {α : Type} (p : PerChannel α) {c c' : Channel} (x y : α) (h : c ≠ c') :
    (p.set c x).set c' y = (p.set c' y).set c x := by cases c <;> cases c' <;> simp_all [PerChannel.set]

theorem PerChannel.ext_get {α : Type} {p q : PerChannel α} (h : ∀ c, p.get c = q.get c) : p = q := by
  have h1 := h .steer
  have h2 := h .throt
  have h3 := h .mode
  cases p
  cases q
  simp_all [PerChannel.get]


/-! ## emit -/

@[simp] theorem emit_cfg (e : Event) (s : State) : (emit e s).cfg = s.cfg := rfl
@[simp] theorem emit_pwmIn (e : Event) (s : State) : (emit e s).pwmIn = s.pwmIn := rfl
@[simp] theorem emit_ch (e : Event) (s : State) : (emit e s).ch = s.ch := rfl
@[simp] theorem emit_mode (e : Event) (s : State) : (emit e s).mode = s.mode := rfl
@[simp] theorem emit_buf (e : Event) (s : State) : (emit e s).buf = s.buf := rfl
@[simp] theorem emit_len (e : Event) (s : State) : (emit e s).len = s.len := rfl
@[simp] theorem emit_cmdAngle (e : Event) (s : State) : (emit e s).cmdAngle = s.cmdAngle := rfl
@[simp] theorem emit_cmdDir (e : Event) (s : State) : (emit e s).cmdDir = s.cmdDir := rfl
@[simp] theorem emit_cmdValid (e : Event) (s : State) : (emit e s).cmdValid = s.cmdValid := rfl
@[simp] theorem emit_cmdPending (e : Event) (s : State) : (emit e s).cmdPending = s.cmdPending := rfl
@[simp] theorem emit_curAngle (e : Event) (s : State) : (emit e s).curAngle = s.curAngle := rfl
@[simp] theorem emit_curDir (e : Event) (s : State) : (emit e s).curDir = s.curDir := rfl
@[simp] theorem emit_prevDir (e : Event) (s : State) : (emit e s).prevDir = s.prevDir := rfl
@[simp] theorem emit_steerOutUs (e : Event) (s : State) : (emit e s).steerOutUs = s.steerOutUs := rfl
@[simp] theorem emit_driveOutUs (e : Event) (s : State) : (emit e s).driveOutUs = s.driveOutUs := rfl
@[simp] theorem emit_dwellActive (e : Event) (s : State) : (emit e s).dwellActive = s.dwellActive := rfl
@[simp] theorem emit_dwellStartUs (e : Event) (s : State) : (emit e s).dwellStartUs = s.dwellStartUs := rfl
@[simp] theorem emit_pendingDir (e : Event) (s : State) : (emit e s).pendingDir = s.pendingDir := rfl
@[simp] theorem emit_indPos (e : Event) (s : State) : (emit e s).indPos = s.indPos := rfl
@[simp] theorem emit_indNeg (e : Event) (s : State) : (emit e s).indNeg = s.indNeg := rfl
@[simp] theorem emit_blinkState (e : Event) (s : State) : (emit e s).blinkState = s.blinkState := rfl
@[simp] theorem emit_blinkLastUs (e : Event) (s : State) : (emit e s).blinkLastUs = s.blinkLastUs := rfl
@[simp] theorem emit_nowUs (e : Event) (s : State) : (emit e s).nowUs = s.nowUs := rfl
@[simp] theorem emit_trace (e : Event) (s : State) : (emit e s).trace = s.trace ++ [e] := rfl
@[simp] theorem emit_agenda (e : Event) (s : State) : (emit e s).agenda = s.agenda := rfl
@[simp] theorem emit_turn (e : Event) (s : State) : (emit e s).turn = s.turn := rfl

/-! ## writeSteer -/

@[simp] theorem writeSteer_cfg (p : Int) (s : State) : (writeSteer p s).cfg = s.cfg := rfl
@[simp] theorem writeSteer_pwmIn (p : Int) (s : State) : (writeSteer p s).pwmIn = s.pwmIn := rfl
@[simp] theorem writeSteer_ch (p : Int) (s : State) : (writeSteer p s).ch = s.ch := rfl
@[simp] theorem writeSteer_mode (p : Int) (s : State) : (writeSteer p s).mode = s.mode := rfl
@[simp] theorem writeSteer_buf (p : Int) (s : State) : (writeSteer p s).buf = s.buf := rfl
@[simp] theorem writeSteer_len (p : Int) (s : State) : (writeSteer p s).len = s.len := rfl
@[simp] theorem writeSteer_cmdAngle (p : Int) (s : State) : (writeSteer p s).cmdAngle = s.cmdAngle := rfl
@[simp] theorem writeSteer_cmdDir (p : Int) (s : State) : (writeSteer p s).cmdDir = s.cmdDir := rfl
@[simp] theorem writeSteer_cmdValid (p : Int) (s : State) : (writeSteer p s).cmdValid = s.cmdValid := rfl
@[simp] theorem writeSteer_cmdPending (p : Int) (s : State) : (writeSteer p s).cmdPending = s.cmdPending := rfl
@[simp] theorem writeSteer_curAngle (p : Int) (s : State) : (writeSteer p s).curAngle = s.curAngle := rfl
@[simp] theorem writeSteer_curDir (p : Int) (s : State) : (writeSteer p s).curDir = s.curDir := rfl
@[simp] theorem writeSteer_prevDir (p : Int) (s : State) : (writeSteer p s).prevDir = s.prevDir := rfl
@[simp] theorem writeSteer_steerOutUs (p : Int) (s : State) : (writeSteer p s).steerOutUs = p := rfl
@[simp] theorem writeSteer_driveOutUs (p : Int) (s : State) : (writeSteer p s).driveOutUs = s.driveOutUs := rfl
@[simp] theorem writeSteer_dwellActive (p : Int) (s : State) : (writeSteer p s).dwellActive = s.dwellActive := rfl
@[simp] theorem writeSteer_dwellStartUs (p : Int) (s : State) : (writeSteer p s).dwellStartUs = s.dwellStartUs := rfl
@[simp] theorem writeSteer_pendingDir (p : Int) (s : State) : (writeSteer p s).pendingDir = s.pendingDir := rfl
@[simp] theorem writeSteer_indPos (p : Int) (s : State) : (writeSteer p s).indPos = s.indPos := rfl
@[simp] theorem writeSteer_indNeg (p : Int) (s : State) : (writeSteer p s).indNeg = s.indNeg := rfl
@[simp] theorem writeSteer_blinkState (p : Int) (s : State) : (writeSteer p s).blinkState = s.blinkState := rfl
@[simp] theorem writeSteer_blinkLastUs (p : Int) (s : State) : (writeSteer p s).blinkLastUs = s.blinkLastUs := rfl
@[simp] theorem writeSteer_nowUs (p : Int) (s : State) : (writeSteer p s).nowUs = s.nowUs := rfl
@[simp] theorem writeSteer_trace (p : Int) (s : State) : (writeSteer p s).trace = s.trace ++ [.steerWrite p] := rfl
@[simp] theorem writeSteer_agenda (p : Int) (s : State) : (writeSteer p s).agenda = s.agenda := rfl
@[simp] theorem writeSteer_turn (p : Int) (s : State) : (writeSteer p s).turn = s.turn := rfl

/-! ## writeDrive -/

@[simp] theorem writeDrive_cfg (p : Int) (s : State) : (writeDrive p s).cfg = s.cfg := rfl
@[simp] theorem writeDrive_pwmIn (p : Int) (s : State) : (writeDrive p s).pwmIn = s.pwmIn := rfl
@[simp] theorem writeDrive_ch (p : Int) (s : State) : (writeDrive p s).ch = s.ch := rfl
@[simp] theorem writeDrive_mode (p : Int) (s : State) : (writeDrive p s).mode = s.mode := rfl
@[simp] theorem writeDrive_buf (p : Int) (s : State) : (writeDrive p s).buf = s.buf := rfl
@[simp] theorem writeDrive_len (p : Int) (s : State) : (writeDrive p s).len = s.len := rfl
@[simp] theorem writeDrive_cmdAngle (p : Int) (s : State) : (writeDrive p s).cmdAngle = s.cmdAngle := rfl
@[simp] theorem writeDrive_cmdDir (p : Int) (s : State) : (writeDrive p s).cmdDir = s.cmdDir := rfl
@[simp] theorem writeDrive_cmdValid (p : Int) (s : State) : (writeDrive p s).cmdValid = s.cmdValid := rfl
@[simp] theorem writeDrive_cmdPending (p : Int) (s : State) : (writeDrive p s).cmdPending = s.cmdPending := rfl
@[simp] theorem writeDrive_curAngle (p : Int) (s : State) : (writeDrive p s).curAngle = s.curAngle := rfl
@[simp] theorem writeDrive_curDir (p : Int) (s : State) : (writeDrive p s).curDir = s.curDir := rfl
@[simp] theorem writeDrive_prevDir (p : Int) (s : State) : (writeDrive p s).prevDir = s.prevDir := rfl
@[simp] theorem writeDrive_steerOutUs (p : Int) (s : State) : (writeDrive p s).steerOutUs = s.steerOutUs := rfl
@[simp] theorem writeDrive_driveOutUs (p : Int) (s : State) : (writeDrive p s).driveOutUs = p := rfl
@[simp] theorem writeDrive_dwellActive (p : Int) (s : State) : (writeDrive p s).dwellActive = s.dwellActive := rfl
@[simp] theorem writeDrive_dwellStartUs (p : Int) (s : State) : (writeDrive p s).dwellStartUs = s.dwellStartUs := rfl
@[simp] theorem writeDrive_pendingDir (p : Int) (s : State) : (writeDrive p s).pendingDir = s.pendingDir := rfl
@[simp] theorem writeDrive_indPos (p : Int) (s : State) : (writeDrive p s).indPos = s.indPos := rfl
@[simp] theorem writeDrive_indNeg (p : Int) (s : State) : (writeDrive p s).indNeg = s.indNeg := rfl
@[simp] theorem writeDrive_blinkState (p : Int) (s : State) : (writeDrive p s).blinkState = s.blinkState := rfl
@[simp] theorem writeDrive_blinkLastUs (p : Int) (s : State) : (writeDrive p s).blinkLastUs = s.blinkLastUs := rfl
@[simp] theorem writeDrive_nowUs (p : Int) (s : State) : (writeDrive p s).nowUs = s.nowUs := rfl
@[simp] theorem writeDrive_trace (p : Int) (s : State) : (writeDrive p s).trace = s.trace ++ [.driveWrite p] := rfl
@[simp] theorem writeDrive_agenda (p : Int) (s : State) : (writeDrive p s).agenda = s.agenda := rfl
@[simp] theorem writeDrive_turn (p : Int) (s : State) : (writeDrive p s).turn = s.turn := rfl

/-! ## setChannel -/

@[simp] theorem setChannel_cfg (c : Channel) (k : PulseChannel) (s : State) : (setChannel c k s).cfg = s.cfg := rfl
@[simp] theorem setChannel_pwmIn (c : Channel) (k : PulseChannel) (s : State) : (setChannel c k s).pwmIn = s.pwmIn := rfl
@[simp] theorem setChannel_ch (c : Channel) (k : PulseChannel) (s : State) : (setChannel c k s).ch = s.ch.set c k := rfl
@[simp] theorem setChannel_mode (c : Channel) (k : PulseChannel) (s : State) : (setChannel c k s).mode = s.mode := rfl
@[simp] theorem setChannel_buf (c : Channel) (k : PulseChannel) (s : State) : (setChannel c k s).buf = s.buf := rfl
@[simp] theorem setChannel_len (c : Channel) (k : PulseChannel) (s : State) : (setChannel c k s).len = s.len := rfl
@[simp] theorem setChannel_cmdAngle (c : Channel) (k : PulseChannel) (s : State) : (setChannel c k s).cmdAngle = s.cmdAngle := rfl
@[simp] theorem setChannel_cmdDir (c : Channel) (k : PulseChannel) (s : State) : (setChannel c k s).cmdDir = s.cmdDir := rfl
@[simp] theorem setChannel_cmdValid (c : Channel) (k : PulseChannel) (s : State) : (setChannel c k s).cmdValid = s.cmdValid := rfl
@[simp] theorem setChannel_cmdPending (c : Channel) (k : PulseChannel) (s : State) : (setChannel c k s).cmdPending = s.cmdPending := rfl
@[simp] theorem setChannel_curAngle (c : Channel) (k : PulseChannel) (s : State) : (setChannel c k s).curAngle = s.curAngle := rfl
@[simp] theorem setChannel_curDir (c : Channel) (k : PulseChannel) (s : State) : (setChannel c k s).curDir = s.curDir := rfl
@[simp] theorem setChannel_prevDir (c : Channel) (k : PulseChannel) (s : State) : (setChannel c k s).prevDir = s.prevDir := rfl
@[simp] theorem setChannel_steerOutUs (c : Channel) (k : PulseChannel) (s : State) : (setChannel c k s).steerOutUs = s.steerOutUs := rfl
@[simp] theorem setChannel_driveOutUs (c : Channel) (k : PulseChannel) (s : State) : (setChannel c k s).driveOutUs = s.driveOutUs := rfl
@[simp] theorem setChannel_dwellActive (c : Channel) (k : PulseChannel) (s : State) : (setChannel c k s).dwellActive = s.dwellActive := rfl
@[simp] theorem setChannel_dwellStartUs (c : Channel) (k : PulseChannel) (s : State) : (setChannel c k s).dwellStartUs = s.dwellStartUs := rfl
@[simp] theorem setChannel_pendingDir (c : Channel) (k : PulseChannel) (s : State) : (setChannel c k s).pendingDir = s.pendingDir := rfl
@[simp] theorem setChannel_indPos (c : Channel) (k : PulseChannel) (s : State) : (setChannel c k s).indPos = s.indPos := rfl
@[simp] theorem setChannel_indNeg (c : Channel) (k : PulseChannel) (s : State) : (setChannel c k s).indNeg = s.indNeg := rfl
@[simp] theorem setChannel_blinkState (c : Channel) (k : PulseChannel) (s : State) : (setChannel c k s).blinkState = s.blinkState := rfl
@[simp] theorem setChannel_blinkLastUs (c : Channel) (k : PulseChannel) (s : State) : (setChannel c k s).blinkLastUs = s.blinkLastUs := rfl
@[simp] theorem setChannel_nowUs (c : Channel) (k : PulseChannel) (s : State) : (setChannel c k s).nowUs = s.nowUs := rfl
@[simp] theorem setChannel_trace (c : Channel) (k : PulseChannel) (s : State) : (setChannel c k s).trace = s.trace := rfl
@[simp] theorem setChannel_agenda (c : Channel) (k : PulseChannel) (s : State) : (setChannel c k s).agenda = s.agenda := rfl
@[simp] theorem setChannel_turn (c : Channel) (k : PulseChannel) (s : State) : (setChannel c k s).turn = s.turn := rfl

/-! ## clearLine -/

@[simp] theorem clearLine_cfg (s : State) : (clearLine s).cfg = s.cfg := rfl
@[simp] theorem clearLine_pwmIn (s : State) : (clearLine s).pwmIn = s.pwmIn := rfl
@[simp] theorem clearLine_ch (s : State) : (clearLine s).ch = s.ch := rfl
@[simp] theorem clearLine_mode (s : State) : (clearLine s).mode = s.mode := rfl
@[simp] theorem clearLine_buf (s : State) : (clearLine s).buf = s.buf := rfl
@[simp] theorem clearLine_len (s : State) : (clearLine s).len = 0 := rfl
@[simp] theorem clearLine_cmdAngle (s : State) : (clearLine s).cmdAngle = s.cmdAngle := rfl
@[simp] theorem clearLine_cmdDir (s : State) : (clearLine s).cmdDir = s.cmdDir := rfl
@[simp] theorem clearLine_cmdValid (s : State) : (clearLine s).cmdValid = s.cmdValid := rfl
@[simp] theorem clearLine_cmdPending (s : State) : (clearLine s).cmdPending = s.cmdPending := rfl
@[simp] theorem clearLine_curAngle (s : State) : (clearLine s).curAngle = s.curAngle := rfl
@[simp] theorem clearLine_curDir (s : State) : (clearLine s).curDir = s.curDir := rfl
@[simp] theorem clearLine_prevDir (s : State) : (clearLine s).prevDir = s.prevDir := rfl
@[simp] theorem clearLine_steerOutUs (s : State) : (clearLine s).steerOutUs = s.steerOutUs := rfl
@[simp] theorem clearLine_driveOutUs (s : State) : (clearLine s).driveOutUs = s.driveOutUs := rfl
@[simp] theorem clearLine_dwellActive (s : State) : (clearLine s).dwellActive = s.dwellActive := rfl
@[simp] theorem clearLine_dwellStartUs (s : State) : (clearLine s).dwellStartUs = s.dwellStartUs := rfl
@[simp] theorem clearLine_pendingDir (s : State) : (clearLine s).pendingDir = s.pendingDir := rfl
@[simp] theorem clearLine_indPos (s : State) : (clearLine s).indPos = s.indPos := rfl
@[simp] theorem clearLine_indNeg (s : State) : (clearLine s).indNeg = s.indNeg := rfl
@[simp] theorem clearLine_blinkState (s : State) : (clearLine s).blinkState = s.blinkState := rfl
@[simp] theorem clearLine_blinkLastUs (s : State) : (clearLine s).blinkLastUs = s.blinkLastUs := rfl
@[simp] theorem clearLine_nowUs (s : State) : (clearLine s).nowUs = s.nowUs := rfl
@[simp] theorem clearLine_trace (s : State) : (clearLine s).trace = s.trace := rfl
@[simp] theorem clearLine_agenda (s : State) : (clearLine s).agenda = s.agenda := rfl
@[simp] theorem clearLine_turn (s : State) : (clearLine s).turn = s.turn := rfl

/-! ## deliver -/

@[simp] theorem deliver_cfg (r : Int × Direction × Bool) (s : State) : (deliver r s).cfg = s.cfg := rfl
@[simp] theorem deliver_pwmIn (r : Int × Direction × Bool) (s : State) : (deliver r s).pwmIn = s.pwmIn := rfl
@[simp] theorem deliver_ch (r : Int × Direction × Bool) (s : State) : (deliver r s).ch = s.ch := rfl
@[simp] theorem deliver_mode (r : Int × Direction × Bool) (s : State) : (deliver r s).mode = s.mode := rfl
@[simp] theorem deliver_buf (r : Int × Direction × Bool) (s : State) : (deliver r s).buf = s.buf := rfl
@[simp] theorem deliver_len (r : Int × Direction × Bool) (s : State) : (deliver r s).len = s.len := rfl
@[simp] theorem deliver_cmdAngle (r : Int × Direction × Bool) (s : State) : (deliver r s).cmdAngle = r.1 := rfl
@[simp] theorem deliver_cmdDir (r : Int × Direction × Bool) (s : State) : (deliver r s).cmdDir = r.2.1 := rfl
@[simp] theorem deliver_cmdValid (r : Int × Direction × Bool) (s : State) : (deliver r s).cmdValid = r.2.2 := rfl
@[simp] theorem deliver_cmdPending (r : Int × Direction × Bool) (s : State) : (deliver r s).cmdPending = true := rfl
@[simp] theorem deliver_curAngle (r : Int × Direction × Bool) (s : State) : (deliver r s).curAngle = s.curAngle := rfl
@[simp] theorem deliver_curDir (r : Int × Direction × Bool) (s : State) : (deliver r s).curDir = s.curDir := rfl
@[simp] theorem deliver_prevDir (r : Int × Direction × Bool) (s : State) : (deliver r s).prevDir = s.prevDir := rfl
@[simp] theorem deliver_steerOutUs (r : Int × Direction × Bool) (s : State) : (deliver r s).steerOutUs = s.steerOutUs := rfl
@[simp] theorem deliver_driveOutUs (r : Int × Direction × Bool) (s : State) : (deliver r s).driveOutUs = s.driveOutUs := rfl
@[simp] theorem deliver_dwellActive (r : Int × Direction × Bool) (s : State) : (deliver r s).dwellActive = s.dwellActive := rfl
@[simp] theorem deliver_dwellStartUs (r : Int × Direction × Bool) (s : State) : (deliver r s).dwellStartUs = s.dwellStartUs := rfl
@[simp] theorem deliver_pendingDir (r : Int × Direction × Bool) (s : State) : (deliver r s).pendingDir = s.pendingDir := rfl
@[simp] theorem deliver_indPos (r : Int × Direction × Bool) (s : State) : (deliver r s).indPos = s.indPos := rfl
@[simp] theorem deliver_indNeg (r : Int × Direction × Bool) (s : State) : (deliver r s).indNeg = s.indNeg := rfl
@[simp] theorem deliver_blinkState (r : Int × Direction × Bool) (s : State) : (deliver r s).blinkState = s.blinkState := rfl
@[simp] theorem deliver_blinkLastUs (r : Int × Direction × Bool) (s : State) : (deliver r s).blinkLastUs = s.blinkLastUs := rfl
@[simp] theorem deliver_nowUs (r : Int × Direction × Bool) (s : State) : (deliver r s).nowUs = s.nowUs := rfl
@[simp] theorem deliver_trace (r : Int × Direction × Bool) (s : State) : (deliver r s).trace = s.trace ++ [.lineDecoded r.1 r.2.1 r.2.2] := rfl
@[simp] theorem deliver_agenda (r : Int × Direction × Bool) (s : State) : (deliver r s).agenda = s.agenda := rfl
@[simp] theorem deliver_turn (r : Int × Direction × Bool) (s : State) : (deliver r s).turn = s.turn := rfl

/-! ## discardCommand -/

@[simp] theorem discardCommand_cfg (s : State) : (discardCommand s).cfg = s.cfg := rfl
@[simp] theorem discardCommand_pwmIn (s : State) : (discardCommand s).pwmIn = s.pwmIn := rfl
@[simp] theorem discardCommand_ch (s : State) : (discardCommand s).ch = s.ch := rfl
@[simp] theorem discardCommand_mode (s : State) : (discardCommand s).mode = s.mode := rfl
@[simp] theorem discardCommand_buf (s : State) : (discardCommand s).buf = s.buf := rfl
@[simp] theorem discardCommand_len (s : State) : (discardCommand s).len = s.len := rfl
@[simp] theorem discardCommand_cmdAngle (s : State) : (discardCommand s).cmdAngle = s.cmdAngle := rfl
@[simp] theorem discardCommand_cmdDir (s : State) : (discardCommand s).cmdDir = s.cmdDir := rfl
@[simp] theorem discardCommand_cmdValid (s : State) : (discardCommand s).cmdValid = s.cmdValid := rfl
@[simp] theorem discardCommand_cmdPending (s : State) : (discardCommand s).cmdPending = false := rfl
@[simp] theorem discardCommand_curAngle (s : State) : (discardCommand s).curAngle = s.curAngle := rfl
@[simp] theorem discardCommand_curDir (s : State) : (discardCommand s).curDir = s.curDir := rfl
@[simp] theorem discardCommand_prevDir (s : State) : (discardCommand s).prevDir = s.prevDir := rfl
@[simp] theorem discardCommand_steerOutUs (s : State) : (discardCommand s).steerOutUs = s.steerOutUs := rfl
@[simp] theorem discardCommand_driveOutUs (s : State) : (discardCommand s).driveOutUs = s.driveOutUs := rfl
@[simp] theorem discardCommand_dwellActive (s : State) : (discardCommand s).dwellActive = s.dwellActive := rfl
@[simp] theorem discardCommand_dwellStartUs (s : State) : (discardCommand s).dwellStartUs = s.dwellStartUs := rfl
@[simp] theorem discardCommand_pendingDir (s : State) : (discardCommand s).pendingDir = s.pendingDir := rfl
@[simp] theorem discardCommand_indPos (s : State) : (discardCommand s).indPos = s.indPos := rfl
@[simp] theorem discardCommand_indNeg (s : State) : (discardCommand s).indNeg = s.indNeg := rfl
@[simp] theorem discardCommand_blinkState (s : State) : (discardCommand s).blinkState = s.blinkState := rfl
@[simp] theorem discardCommand_blinkLastUs (s : State) : (discardCommand s).blinkLastUs = s.blinkLastUs := rfl
@[simp] theorem discardCommand_nowUs (s : State) : (discardCommand s).nowUs = s.nowUs := rfl
@[simp] theorem discardCommand_trace (s : State) : (discardCommand s).trace = s.trace := rfl
@[simp] theorem discardCommand_agenda (s : State) : (discardCommand s).agenda = s.agenda := rfl
@[simp] theorem discardCommand_turn (s : State) : (discardCommand s).turn = s.turn := rfl

/-! ## indicatorsOff -/

@[simp] theorem indicatorsOff_cfg (s : State) : (indicatorsOff s).cfg = s.cfg := rfl
@[simp] theorem indicatorsOff_pwmIn (s : State) : (indicatorsOff s).pwmIn = s.pwmIn := rfl
@[simp] theorem indicatorsOff_ch (s : State) : (indicatorsOff s).ch = s.ch := rfl
@[simp] theorem indicatorsOff_mode (s : State) : (indicatorsOff s).mode = s.mode := rfl
@[simp] theorem indicatorsOff_buf (s : State) : (indicatorsOff s).buf = s.buf := rfl
@[simp] theorem indicatorsOff_len (s : State) : (indicatorsOff s).len = s.len := rfl
@[simp] theorem indicatorsOff_cmdAngle (s : State) : (indicatorsOff s).cmdAngle = s.cmdAngle := rfl
@[simp] theorem indicatorsOff_cmdDir (s : State) : (indicatorsOff s).cmdDir = s.cmdDir := rfl
@[simp] theorem indicatorsOff_cmdValid (s : State) : (indicatorsOff s).cmdValid = s.cmdValid := rfl
@[simp] theorem indicatorsOff_cmdPending (s : State) : (indicatorsOff s).cmdPending = s.cmdPending := rfl
@[simp] theorem indicatorsOff_curAngle (s : State) : (indicatorsOff s).curAngle = s.curAngle := rfl
@[simp] theorem indicatorsOff_curDir (s : State) : (indicatorsOff s).curDir = s.curDir := rfl
@[simp] theorem indicatorsOff_prevDir (s : State) : (indicatorsOff s).prevDir = s.prevDir := rfl
@[simp] theorem indicatorsOff_steerOutUs (s : State) : (indicatorsOff s).steerOutUs = s.steerOutUs := rfl
@[simp] theorem indicatorsOff_driveOutUs (s : State) : (indicatorsOff s).driveOutUs = s.driveOutUs := rfl
@[simp] theorem indicatorsOff_dwellActive (s : State) : (indicatorsOff s).dwellActive = s.dwellActive := rfl
@[simp] theorem indicatorsOff_dwellStartUs (s : State) : (indicatorsOff s).dwellStartUs = s.dwellStartUs := rfl
@[simp] theorem indicatorsOff_pendingDir (s : State) : (indicatorsOff s).pendingDir = s.pendingDir := rfl
@[simp] theorem indicatorsOff_indPos (s : State) : (indicatorsOff s).indPos = false := rfl
@[simp] theorem indicatorsOff_indNeg (s : State) : (indicatorsOff s).indNeg = false := rfl
@[simp] theorem indicatorsOff_blinkState (s : State) : (indicatorsOff s).blinkState = s.blinkState := rfl
@[simp] theorem indicatorsOff_blinkLastUs (s : State) : (indicatorsOff s).blinkLastUs = s.blinkLastUs := rfl
@[simp] theorem indicatorsOff_nowUs (s : State) : (indicatorsOff s).nowUs = s.nowUs := rfl
@[simp] theorem indicatorsOff_trace (s : State) : (indicatorsOff s).trace = s.trace := rfl
@[simp] theorem indicatorsOff_agenda (s : State) : (indicatorsOff s).agenda = s.agenda := rfl
@[simp] theorem indicatorsOff_turn (s : State) : (indicatorsOff s).turn = s.turn := rfl

/-! ## advance -/

@[simp] theorem advance_cfg (d : Nat) (s : State) : (advance d s).cfg = s.cfg := rfl
@[simp] theorem advance_pwmIn (d : Nat) (s : State) : (advance d s).pwmIn = s.pwmIn := rfl
@[simp] theorem advance_ch (d : Nat) (s : State) : (advance d s).ch = s.ch := rfl
@[simp] theorem advance_mode (d : Nat) (s : State) : (advance d s).mode = s.mode := rfl
@[simp] theorem advance_buf (d : Nat) (s : State) : (advance d s).buf = s.buf := rfl
@[simp] theorem advance_len (d : Nat) (s : State) : (advance d s).len = s.len := rfl
@[simp] theorem advance_cmdAngle (d : Nat) (s : State) : (advance d s).cmdAngle = s.cmdAngle := rfl
@[simp] theorem advance_cmdDir (d : Nat) (s : State) : (advance d s).cmdDir = s.cmdDir := rfl
@[simp] theorem advance_cmdValid (d : Nat) (s : State) : (advance d s).cmdValid = s.cmdValid := rfl
@[simp] theorem advance_cmdPending (d : Nat) (s : State) : (advance d s).cmdPending = s.cmdPending := rfl
@[simp] theorem advance_curAngle (d : Nat) (s : State) : (advance d s).curAngle = s.curAngle := rfl
@[simp] theorem advance_curDir (d : Nat) (s : State) : (advance d s).curDir = s.curDir := rfl
@[simp] theorem advance_prevDir (d : Nat) (s : State) : (advance d s).prevDir = s.prevDir := rfl
@[simp] theorem advance_steerOutUs (d : Nat) (s : State) : (advance d s).steerOutUs = s.steerOutUs := rfl
@[simp] theorem advance_driveOutUs (d : Nat) (s : State) : (advance d s).driveOutUs = s.driveOutUs := rfl
@[simp] theorem advance_dwellActive (d : Nat) (s : State) : (advance d s).dwellActive = s.dwellActive := rfl
@[simp] theorem advance_dwellStartUs (d : Nat) (s : State) : (advance d s).dwellStartUs = s.dwellStartUs := rfl
@[simp] theorem advance_pendingDir (d : Nat) (s : State) : (advance d s).pendingDir = s.pendingDir := rfl
@[simp] theorem advance_indPos (d : Nat) (s : State) : (advance d s).indPos = s.indPos := rfl
@[simp] theorem advance_indNeg (d : Nat) (s : State) : (advance d s).indNeg = s.indNeg := rfl
@[simp] theorem advance_blinkState (d : Nat) (s : State) : (advance d s).blinkState = s.blinkState := rfl
@[simp] theorem advance_blinkLastUs (d : Nat) (s : State) : (advance d s).blinkLastUs = s.blinkLastUs := rfl
@[simp] theorem advance_nowUs (d : Nat) (s : State) : (advance d s).nowUs = s.nowUs + BitVec.ofNat tsW d := rfl
@[simp] theorem advance_trace (d : Nat) (s : State) : (advance d s).trace = s.trace := rfl
@[simp] theorem advance_agenda (d : Nat) (s : State) : (advance d s).agenda = s.agenda := rfl
@[simp] theorem advance_turn (d : Nat) (s : State) : (advance d s).turn = s.turn := rfl

/-! ## txMode -/

@[simp] theorem txMode_cfg (m : ActiveMode) (s : State) : (txMode m s).cfg = s.cfg := rfl
@[simp] theorem txMode_pwmIn (m : ActiveMode) (s : State) : (txMode m s).pwmIn = s.pwmIn := rfl
@[simp] theorem txMode_ch (m : ActiveMode) (s : State) : (txMode m s).ch = s.ch := rfl
@[simp] theorem txMode_mode (m : ActiveMode) (s : State) : (txMode m s).mode = s.mode := rfl
@[simp] theorem txMode_buf (m : ActiveMode) (s : State) : (txMode m s).buf = s.buf := rfl
@[simp] theorem txMode_len (m : ActiveMode) (s : State) : (txMode m s).len = s.len := rfl
@[simp] theorem txMode_cmdAngle (m : ActiveMode) (s : State) : (txMode m s).cmdAngle = s.cmdAngle := rfl
@[simp] theorem txMode_cmdDir (m : ActiveMode) (s : State) : (txMode m s).cmdDir = s.cmdDir := rfl
@[simp] theorem txMode_cmdValid (m : ActiveMode) (s : State) : (txMode m s).cmdValid = s.cmdValid := rfl
@[simp] theorem txMode_cmdPending (m : ActiveMode) (s : State) : (txMode m s).cmdPending = s.cmdPending := rfl
@[simp] theorem txMode_curAngle (m : ActiveMode) (s : State) : (txMode m s).curAngle = s.curAngle := rfl
@[simp] theorem txMode_curDir (m : ActiveMode) (s : State) : (txMode m s).curDir = s.curDir := rfl
@[simp] theorem txMode_prevDir (m : ActiveMode) (s : State) : (txMode m s).prevDir = s.prevDir := rfl
@[simp] theorem txMode_steerOutUs (m : ActiveMode) (s : State) : (txMode m s).steerOutUs = s.steerOutUs := rfl
@[simp] theorem txMode_driveOutUs (m : ActiveMode) (s : State) : (txMode m s).driveOutUs = s.driveOutUs := rfl
@[simp] theorem txMode_dwellActive (m : ActiveMode) (s : State) : (txMode m s).dwellActive = s.dwellActive := rfl
@[simp] theorem txMode_dwellStartUs (m : ActiveMode) (s : State) : (txMode m s).dwellStartUs = s.dwellStartUs := rfl
@[simp] theorem txMode_pendingDir (m : ActiveMode) (s : State) : (txMode m s).pendingDir = s.pendingDir := rfl
@[simp] theorem txMode_indPos (m : ActiveMode) (s : State) : (txMode m s).indPos = s.indPos := rfl
@[simp] theorem txMode_indNeg (m : ActiveMode) (s : State) : (txMode m s).indNeg = s.indNeg := rfl
@[simp] theorem txMode_blinkState (m : ActiveMode) (s : State) : (txMode m s).blinkState = s.blinkState := rfl
@[simp] theorem txMode_blinkLastUs (m : ActiveMode) (s : State) : (txMode m s).blinkLastUs = s.blinkLastUs := rfl
@[simp] theorem txMode_nowUs (m : ActiveMode) (s : State) : (txMode m s).nowUs = s.nowUs := rfl
@[simp] theorem txMode_trace (m : ActiveMode) (s : State) : (txMode m s).trace = s.trace ++ [.txLine (announcement m)] := rfl
@[simp] theorem txMode_agenda (m : ActiveMode) (s : State) : (txMode m s).agenda = s.agenda := rfl
@[simp] theorem txMode_turn (m : ActiveMode) (s : State) : (txMode m s).turn = s.turn := rfl

/-! ## steerCmd -/

@[simp] theorem steerCmd_cfg (a : Int) (s : State) : (steerCmd a s).cfg = s.cfg := rfl
@[simp] theorem steerCmd_pwmIn (a : Int) (s : State) : (steerCmd a s).pwmIn = s.pwmIn := rfl
@[simp] theorem steerCmd_ch (a : Int) (s : State) : (steerCmd a s).ch = s.ch := rfl
@[simp] theorem steerCmd_mode (a : Int) (s : State) : (steerCmd a s).mode = s.mode := rfl
@[simp] theorem steerCmd_buf (a : Int) (s : State) : (steerCmd a s).buf = s.buf := rfl
@[simp] theorem steerCmd_len (a : Int) (s : State) : (steerCmd a s).len = s.len := rfl
@[simp] theorem steerCmd_cmdAngle (a : Int) (s : State) : (steerCmd a s).cmdAngle = s.cmdAngle := rfl
@[simp] theorem steerCmd_cmdDir (a : Int) (s : State) : (steerCmd a s).cmdDir = s.cmdDir := rfl
@[simp] theorem steerCmd_cmdValid (a : Int) (s : State) : (steerCmd a s).cmdValid = s.cmdValid := rfl
@[simp] theorem steerCmd_cmdPending (a : Int) (s : State) : (steerCmd a s).cmdPending = s.cmdPending := rfl
@[simp] theorem steerCmd_curAngle (a : Int) (s : State) : (steerCmd a s).curAngle = calibrated s.cfg a := rfl
@[simp] theorem steerCmd_curDir (a : Int) (s : State) : (steerCmd a s).curDir = s.curDir := rfl
@[simp] theorem steerCmd_prevDir (a : Int) (s : State) : (steerCmd a s).prevDir = s.prevDir := rfl
@[simp] theorem steerCmd_steerOutUs (a : Int) (s : State) : (steerCmd a s).steerOutUs = steerPulse s.cfg (calibrated s.cfg a) := rfl
@[simp] theorem steerCmd_driveOutUs (a : Int) (s : State) : (steerCmd a s).driveOutUs = s.driveOutUs := rfl
@[simp] theorem steerCmd_dwellActive (a : Int) (s : State) : (steerCmd a s).dwellActive = s.dwellActive := rfl
@[simp] theorem steerCmd_dwellStartUs (a : Int) (s : State) : (steerCmd a s).dwellStartUs = s.dwellStartUs := rfl
@[simp] theorem steerCmd_pendingDir (a : Int) (s : State) : (steerCmd a s).pendingDir = s.pendingDir := rfl
@[simp] theorem steerCmd_indPos (a : Int) (s : State) : (steerCmd a s).indPos = s.indPos := rfl
@[simp] theorem steerCmd_indNeg (a : Int) (s : State) : (steerCmd a s).indNeg = s.indNeg := rfl
@[simp] theorem steerCmd_blinkState (a : Int) (s : State) : (steerCmd a s).blinkState = s.blinkState := rfl
@[simp] theorem steerCmd_blinkLastUs (a : Int) (s : State) : (steerCmd a s).blinkLastUs = s.blinkLastUs := rfl
@[simp] theorem steerCmd_nowUs (a : Int) (s : State) : (steerCmd a s).nowUs = s.nowUs := rfl
@[simp] theorem steerCmd_trace (a : Int) (s : State) : (steerCmd a s).trace = s.trace ++ [.steerWrite (steerPulse s.cfg (calibrated s.cfg a))] := rfl
@[simp] theorem steerCmd_agenda (a : Int) (s : State) : (steerCmd a s).agenda = s.agenda := rfl
@[simp] theorem steerCmd_turn (a : Int) (s : State) : (steerCmd a s).turn = s.turn := rfl

end Sys2Proof.Machine
end

