-- ==== Sys2Proof/Laws/Frame.lean ====
section
/-! SUPPORT. What each conditional operation leaves unchanged, one lemma per field. -/

namespace Sys2Proof.Machine


/-! ## sample_snd -/

@[simp] theorem sample_snd_cfg (c : Channel) (s : State) : ((sample c s).2).cfg = s.cfg := rfl
@[simp] theorem sample_snd_pwmIn (c : Channel) (s : State) : ((sample c s).2).pwmIn = s.pwmIn := rfl
@[simp] theorem sample_snd_mode (c : Channel) (s : State) : ((sample c s).2).mode = s.mode := rfl
@[simp] theorem sample_snd_buf (c : Channel) (s : State) : ((sample c s).2).buf = s.buf := rfl
@[simp] theorem sample_snd_len (c : Channel) (s : State) : ((sample c s).2).len = s.len := rfl
@[simp] theorem sample_snd_cmdAngle (c : Channel) (s : State) : ((sample c s).2).cmdAngle = s.cmdAngle := rfl
@[simp] theorem sample_snd_cmdDir (c : Channel) (s : State) : ((sample c s).2).cmdDir = s.cmdDir := rfl
@[simp] theorem sample_snd_cmdValid (c : Channel) (s : State) : ((sample c s).2).cmdValid = s.cmdValid := rfl
@[simp] theorem sample_snd_cmdPending (c : Channel) (s : State) : ((sample c s).2).cmdPending = s.cmdPending := rfl
@[simp] theorem sample_snd_curAngle (c : Channel) (s : State) : ((sample c s).2).curAngle = s.curAngle := rfl
@[simp] theorem sample_snd_curDir (c : Channel) (s : State) : ((sample c s).2).curDir = s.curDir := rfl
@[simp] theorem sample_snd_prevDir (c : Channel) (s : State) : ((sample c s).2).prevDir = s.prevDir := rfl
@[simp] theorem sample_snd_steerOutUs (c : Channel) (s : State) : ((sample c s).2).steerOutUs = s.steerOutUs := rfl
@[simp] theorem sample_snd_driveOutUs (c : Channel) (s : State) : ((sample c s).2).driveOutUs = s.driveOutUs := rfl
@[simp] theorem sample_snd_dwellActive (c : Channel) (s : State) : ((sample c s).2).dwellActive = s.dwellActive := rfl
@[simp] theorem sample_snd_dwellStartUs (c : Channel) (s : State) : ((sample c s).2).dwellStartUs = s.dwellStartUs := rfl
@[simp] theorem sample_snd_pendingDir (c : Channel) (s : State) : ((sample c s).2).pendingDir = s.pendingDir := rfl
@[simp] theorem sample_snd_indPos (c : Channel) (s : State) : ((sample c s).2).indPos = s.indPos := rfl
@[simp] theorem sample_snd_indNeg (c : Channel) (s : State) : ((sample c s).2).indNeg = s.indNeg := rfl
@[simp] theorem sample_snd_blinkState (c : Channel) (s : State) : ((sample c s).2).blinkState = s.blinkState := rfl
@[simp] theorem sample_snd_blinkLastUs (c : Channel) (s : State) : ((sample c s).2).blinkLastUs = s.blinkLastUs := rfl
@[simp] theorem sample_snd_nowUs (c : Channel) (s : State) : ((sample c s).2).nowUs = s.nowUs := rfl
@[simp] theorem sample_snd_trace (c : Channel) (s : State) : ((sample c s).2).trace = s.trace := rfl
@[simp] theorem sample_snd_agenda (c : Channel) (s : State) : ((sample c s).2).agenda = s.agenda := rfl
@[simp] theorem sample_snd_turn (c : Channel) (s : State) : ((sample c s).2).turn = s.turn := rfl

/-! ## pinRise -/

@[simp] theorem pinRise_cfg (c : Channel) (s : State) : (pinRise c s).cfg = s.cfg := rfl
@[simp] theorem pinRise_pwmIn (c : Channel) (s : State) : (pinRise c s).pwmIn = s.pwmIn := rfl
@[simp] theorem pinRise_mode (c : Channel) (s : State) : (pinRise c s).mode = s.mode := rfl
@[simp] theorem pinRise_buf (c : Channel) (s : State) : (pinRise c s).buf = s.buf := rfl
@[simp] theorem pinRise_len (c : Channel) (s : State) : (pinRise c s).len = s.len := rfl
@[simp] theorem pinRise_cmdAngle (c : Channel) (s : State) : (pinRise c s).cmdAngle = s.cmdAngle := rfl
@[simp] theorem pinRise_cmdDir (c : Channel) (s : State) : (pinRise c s).cmdDir = s.cmdDir := rfl
@[simp] theorem pinRise_cmdValid (c : Channel) (s : State) : (pinRise c s).cmdValid = s.cmdValid := rfl
@[simp] theorem pinRise_cmdPending (c : Channel) (s : State) : (pinRise c s).cmdPending = s.cmdPending := rfl
@[simp] theorem pinRise_curAngle (c : Channel) (s : State) : (pinRise c s).curAngle = s.curAngle := rfl
@[simp] theorem pinRise_curDir (c : Channel) (s : State) : (pinRise c s).curDir = s.curDir := rfl
@[simp] theorem pinRise_prevDir (c : Channel) (s : State) : (pinRise c s).prevDir = s.prevDir := rfl
@[simp] theorem pinRise_steerOutUs (c : Channel) (s : State) : (pinRise c s).steerOutUs = s.steerOutUs := rfl
@[simp] theorem pinRise_driveOutUs (c : Channel) (s : State) : (pinRise c s).driveOutUs = s.driveOutUs := rfl
@[simp] theorem pinRise_dwellActive (c : Channel) (s : State) : (pinRise c s).dwellActive = s.dwellActive := rfl
@[simp] theorem pinRise_dwellStartUs (c : Channel) (s : State) : (pinRise c s).dwellStartUs = s.dwellStartUs := rfl
@[simp] theorem pinRise_pendingDir (c : Channel) (s : State) : (pinRise c s).pendingDir = s.pendingDir := rfl
@[simp] theorem pinRise_indPos (c : Channel) (s : State) : (pinRise c s).indPos = s.indPos := rfl
@[simp] theorem pinRise_indNeg (c : Channel) (s : State) : (pinRise c s).indNeg = s.indNeg := rfl
@[simp] theorem pinRise_blinkState (c : Channel) (s : State) : (pinRise c s).blinkState = s.blinkState := rfl
@[simp] theorem pinRise_blinkLastUs (c : Channel) (s : State) : (pinRise c s).blinkLastUs = s.blinkLastUs := rfl
@[simp] theorem pinRise_nowUs (c : Channel) (s : State) : (pinRise c s).nowUs = s.nowUs := rfl
@[simp] theorem pinRise_trace (c : Channel) (s : State) : (pinRise c s).trace = s.trace := rfl
@[simp] theorem pinRise_agenda (c : Channel) (s : State) : (pinRise c s).agenda = s.agenda := rfl
@[simp] theorem pinRise_turn (c : Channel) (s : State) : (pinRise c s).turn = s.turn := rfl

/-! ## pinFall -/

@[simp] theorem pinFall_cfg (c : Channel) (s : State) : (pinFall c s).cfg = s.cfg := by unfold pinFall; split <;> rfl
@[simp] theorem pinFall_pwmIn (c : Channel) (s : State) : (pinFall c s).pwmIn = s.pwmIn := by unfold pinFall; split <;> rfl
@[simp] theorem pinFall_mode (c : Channel) (s : State) : (pinFall c s).mode = s.mode := by unfold pinFall; split <;> rfl
@[simp] theorem pinFall_buf (c : Channel) (s : State) : (pinFall c s).buf = s.buf := by unfold pinFall; split <;> rfl
@[simp] theorem pinFall_len (c : Channel) (s : State) : (pinFall c s).len = s.len := by unfold pinFall; split <;> rfl
@[simp] theorem pinFall_cmdAngle (c : Channel) (s : State) : (pinFall c s).cmdAngle = s.cmdAngle := by unfold pinFall; split <;> rfl
@[simp] theorem pinFall_cmdDir (c : Channel) (s : State) : (pinFall c s).cmdDir = s.cmdDir := by unfold pinFall; split <;> rfl
@[simp] theorem pinFall_cmdValid (c : Channel) (s : State) : (pinFall c s).cmdValid = s.cmdValid := by unfold pinFall; split <;> rfl
@[simp] theorem pinFall_cmdPending (c : Channel) (s : State) : (pinFall c s).cmdPending = s.cmdPending := by unfold pinFall; split <;> rfl
@[simp] theorem pinFall_curAngle (c : Channel) (s : State) : (pinFall c s).curAngle = s.curAngle := by unfold pinFall; split <;> rfl
@[simp] theorem pinFall_curDir (c : Channel) (s : State) : (pinFall c s).curDir = s.curDir := by unfold pinFall; split <;> rfl
@[simp] theorem pinFall_prevDir (c : Channel) (s : State) : (pinFall c s).prevDir = s.prevDir := by unfold pinFall; split <;> rfl
@[simp] theorem pinFall_steerOutUs (c : Channel) (s : State) : (pinFall c s).steerOutUs = s.steerOutUs := by unfold pinFall; split <;> rfl
@[simp] theorem pinFall_driveOutUs (c : Channel) (s : State) : (pinFall c s).driveOutUs = s.driveOutUs := by unfold pinFall; split <;> rfl
@[simp] theorem pinFall_dwellActive (c : Channel) (s : State) : (pinFall c s).dwellActive = s.dwellActive := by unfold pinFall; split <;> rfl
@[simp] theorem pinFall_dwellStartUs (c : Channel) (s : State) : (pinFall c s).dwellStartUs = s.dwellStartUs := by unfold pinFall; split <;> rfl
@[simp] theorem pinFall_pendingDir (c : Channel) (s : State) : (pinFall c s).pendingDir = s.pendingDir := by unfold pinFall; split <;> rfl
@[simp] theorem pinFall_indPos (c : Channel) (s : State) : (pinFall c s).indPos = s.indPos := by unfold pinFall; split <;> rfl
@[simp] theorem pinFall_indNeg (c : Channel) (s : State) : (pinFall c s).indNeg = s.indNeg := by unfold pinFall; split <;> rfl
@[simp] theorem pinFall_blinkState (c : Channel) (s : State) : (pinFall c s).blinkState = s.blinkState := by unfold pinFall; split <;> rfl
@[simp] theorem pinFall_blinkLastUs (c : Channel) (s : State) : (pinFall c s).blinkLastUs = s.blinkLastUs := by unfold pinFall; split <;> rfl
@[simp] theorem pinFall_nowUs (c : Channel) (s : State) : (pinFall c s).nowUs = s.nowUs := by unfold pinFall; split <;> rfl
@[simp] theorem pinFall_trace (c : Channel) (s : State) : (pinFall c s).trace = s.trace := by unfold pinFall; split <;> rfl
@[simp] theorem pinFall_agenda (c : Channel) (s : State) : (pinFall c s).agenda = s.agenda := by unfold pinFall; split <;> rfl
@[simp] theorem pinFall_turn (c : Channel) (s : State) : (pinFall c s).turn = s.turn := by unfold pinFall; split <;> rfl

/-! ## pinEvent -/

@[simp] theorem pinEvent_cfg (c : Channel) (v : Bool) (s : State) : (pinEvent c v s).cfg = s.cfg := by simp only [pinEvent]; split <;> [skip; split] <;> simp
@[simp] theorem pinEvent_mode (c : Channel) (v : Bool) (s : State) : (pinEvent c v s).mode = s.mode := by simp only [pinEvent]; split <;> [skip; split] <;> simp
@[simp] theorem pinEvent_buf (c : Channel) (v : Bool) (s : State) : (pinEvent c v s).buf = s.buf := by simp only [pinEvent]; split <;> [skip; split] <;> simp
@[simp] theorem pinEvent_len (c : Channel) (v : Bool) (s : State) : (pinEvent c v s).len = s.len := by simp only [pinEvent]; split <;> [skip; split] <;> simp
@[simp] theorem pinEvent_cmdAngle (c : Channel) (v : Bool) (s : State) : (pinEvent c v s).cmdAngle = s.cmdAngle := by simp only [pinEvent]; split <;> [skip; split] <;> simp
@[simp] theorem pinEvent_cmdDir (c : Channel) (v : Bool) (s : State) : (pinEvent c v s).cmdDir = s.cmdDir := by simp only [pinEvent]; split <;> [skip; split] <;> simp
@[simp] theorem pinEvent_cmdValid (c : Channel) (v : Bool) (s : State) : (pinEvent c v s).cmdValid = s.cmdValid := by simp only [pinEvent]; split <;> [skip; split] <;> simp
@[simp] theorem pinEvent_cmdPending (c : Channel) (v : Bool) (s : State) : (pinEvent c v s).cmdPending = s.cmdPending := by simp only [pinEvent]; split <;> [skip; split] <;> simp
@[simp] theorem pinEvent_curAngle (c : Channel) (v : Bool) (s : State) : (pinEvent c v s).curAngle = s.curAngle := by simp only [pinEvent]; split <;> [skip; split] <;> simp
@[simp] theorem pinEvent_curDir (c : Channel) (v : Bool) (s : State) : (pinEvent c v s).curDir = s.curDir := by simp only [pinEvent]; split <;> [skip; split] <;> simp
@[simp] theorem pinEvent_prevDir (c : Channel) (v : Bool) (s : State) : (pinEvent c v s).prevDir = s.prevDir := by simp only [pinEvent]; split <;> [skip; split] <;> simp
@[simp] theorem pinEvent_steerOutUs (c : Channel) (v : Bool) (s : State) : (pinEvent c v s).steerOutUs = s.steerOutUs := by simp only [pinEvent]; split <;> [skip; split] <;> simp
@[simp] theorem pinEvent_driveOutUs (c : Channel) (v : Bool) (s : State) : (pinEvent c v s).driveOutUs = s.driveOutUs := by simp only [pinEvent]; split <;> [skip; split] <;> simp
@[simp] theorem pinEvent_dwellActive (c : Channel) (v : Bool) (s : State) : (pinEvent c v s).dwellActive = s.dwellActive := by simp only [pinEvent]; split <;> [skip; split] <;> simp
@[simp] theorem pinEvent_dwellStartUs (c : Channel) (v : Bool) (s : State) : (pinEvent c v s).dwellStartUs = s.dwellStartUs := by simp only [pinEvent]; split <;> [skip; split] <;> simp
@[simp] theorem pinEvent_pendingDir (c : Channel) (v : Bool) (s : State) : (pinEvent c v s).pendingDir = s.pendingDir := by simp only [pinEvent]; split <;> [skip; split] <;> simp
@[simp] theorem pinEvent_indPos (c : Channel) (v : Bool) (s : State) : (pinEvent c v s).indPos = s.indPos := by simp only [pinEvent]; split <;> [skip; split] <;> simp
@[simp] theorem pinEvent_indNeg (c : Channel) (v : Bool) (s : State) : (pinEvent c v s).indNeg = s.indNeg := by simp only [pinEvent]; split <;> [skip; split] <;> simp
@[simp] theorem pinEvent_blinkState (c : Channel) (v : Bool) (s : State) : (pinEvent c v s).blinkState = s.blinkState := by simp only [pinEvent]; split <;> [skip; split] <;> simp
@[simp] theorem pinEvent_blinkLastUs (c : Channel) (v : Bool) (s : State) : (pinEvent c v s).blinkLastUs = s.blinkLastUs := by simp only [pinEvent]; split <;> [skip; split] <;> simp
@[simp] theorem pinEvent_nowUs (c : Channel) (v : Bool) (s : State) : (pinEvent c v s).nowUs = s.nowUs := by simp only [pinEvent]; split <;> [skip; split] <;> simp
@[simp] theorem pinEvent_trace (c : Channel) (v : Bool) (s : State) : (pinEvent c v s).trace = s.trace := by simp only [pinEvent]; split <;> [skip; split] <;> simp
@[simp] theorem pinEvent_agenda (c : Channel) (v : Bool) (s : State) : (pinEvent c v s).agenda = s.agenda := by simp only [pinEvent]; split <;> [skip; split] <;> simp
@[simp] theorem pinEvent_turn (c : Channel) (v : Bool) (s : State) : (pinEvent c v s).turn = s.turn := by simp only [pinEvent]; split <;> [skip; split] <;> simp

/-! ## storeByte -/

@[simp] theorem storeByte_cfg (b : Byte) (s : State) : (storeByte b s).cfg = s.cfg := by unfold storeByte; split <;> rfl
@[simp] theorem storeByte_pwmIn (b : Byte) (s : State) : (storeByte b s).pwmIn = s.pwmIn := by unfold storeByte; split <;> rfl
@[simp] theorem storeByte_ch (b : Byte) (s : State) : (storeByte b s).ch = s.ch := by unfold storeByte; split <;> rfl
@[simp] theorem storeByte_mode (b : Byte) (s : State) : (storeByte b s).mode = s.mode := by unfold storeByte; split <;> rfl
@[simp] theorem storeByte_cmdAngle (b : Byte) (s : State) : (storeByte b s).cmdAngle = s.cmdAngle := by unfold storeByte; split <;> rfl
@[simp] theorem storeByte_cmdDir (b : Byte) (s : State) : (storeByte b s).cmdDir = s.cmdDir := by unfold storeByte; split <;> rfl
@[simp] theorem storeByte_cmdValid (b : Byte) (s : State) : (storeByte b s).cmdValid = s.cmdValid := by unfold storeByte; split <;> rfl
@[simp] theorem storeByte_cmdPending (b : Byte) (s : State) : (storeByte b s).cmdPending = s.cmdPending := by unfold storeByte; split <;> rfl
@[simp] theorem storeByte_curAngle (b : Byte) (s : State) : (storeByte b s).curAngle = s.curAngle := by unfold storeByte; split <;> rfl
@[simp] theorem storeByte_curDir (b : Byte) (s : State) : (storeByte b s).curDir = s.curDir := by unfold storeByte; split <;> rfl
@[simp] theorem storeByte_prevDir (b : Byte) (s : State) : (storeByte b s).prevDir = s.prevDir := by unfold storeByte; split <;> rfl
@[simp] theorem storeByte_steerOutUs (b : Byte) (s : State) : (storeByte b s).steerOutUs = s.steerOutUs := by unfold storeByte; split <;> rfl
@[simp] theorem storeByte_driveOutUs (b : Byte) (s : State) : (storeByte b s).driveOutUs = s.driveOutUs := by unfold storeByte; split <;> rfl
@[simp] theorem storeByte_dwellActive (b : Byte) (s : State) : (storeByte b s).dwellActive = s.dwellActive := by unfold storeByte; split <;> rfl
@[simp] theorem storeByte_dwellStartUs (b : Byte) (s : State) : (storeByte b s).dwellStartUs = s.dwellStartUs := by unfold storeByte; split <;> rfl
@[simp] theorem storeByte_pendingDir (b : Byte) (s : State) : (storeByte b s).pendingDir = s.pendingDir := by unfold storeByte; split <;> rfl
@[simp] theorem storeByte_indPos (b : Byte) (s : State) : (storeByte b s).indPos = s.indPos := by unfold storeByte; split <;> rfl
@[simp] theorem storeByte_indNeg (b : Byte) (s : State) : (storeByte b s).indNeg = s.indNeg := by unfold storeByte; split <;> rfl
@[simp] theorem storeByte_blinkState (b : Byte) (s : State) : (storeByte b s).blinkState = s.blinkState := by unfold storeByte; split <;> rfl
@[simp] theorem storeByte_blinkLastUs (b : Byte) (s : State) : (storeByte b s).blinkLastUs = s.blinkLastUs := by unfold storeByte; split <;> rfl
@[simp] theorem storeByte_nowUs (b : Byte) (s : State) : (storeByte b s).nowUs = s.nowUs := by unfold storeByte; split <;> rfl
@[simp] theorem storeByte_trace (b : Byte) (s : State) : (storeByte b s).trace = s.trace := by unfold storeByte; split <;> rfl
@[simp] theorem storeByte_agenda (b : Byte) (s : State) : (storeByte b s).agenda = s.agenda := by unfold storeByte; split <;> rfl
@[simp] theorem storeByte_turn (b : Byte) (s : State) : (storeByte b s).turn = s.turn := by unfold storeByte; split <;> rfl

/-! ## driveCmd -/

@[simp] theorem driveCmd_cfg (d : Direction) (s : State) : (driveCmd d s).cfg = s.cfg := by unfold driveCmd; split <;> [skip; split] <;> rfl
@[simp] theorem driveCmd_pwmIn (d : Direction) (s : State) : (driveCmd d s).pwmIn = s.pwmIn := by unfold driveCmd; split <;> [skip; split] <;> rfl
@[simp] theorem driveCmd_ch (d : Direction) (s : State) : (driveCmd d s).ch = s.ch := by unfold driveCmd; split <;> [skip; split] <;> rfl
@[simp] theorem driveCmd_mode (d : Direction) (s : State) : (driveCmd d s).mode = s.mode := by unfold driveCmd; split <;> [skip; split] <;> rfl
@[simp] theorem driveCmd_buf (d : Direction) (s : State) : (driveCmd d s).buf = s.buf := by unfold driveCmd; split <;> [skip; split] <;> rfl
@[simp] theorem driveCmd_len (d : Direction) (s : State) : (driveCmd d s).len = s.len := by unfold driveCmd; split <;> [skip; split] <;> rfl
@[simp] theorem driveCmd_cmdAngle (d : Direction) (s : State) : (driveCmd d s).cmdAngle = s.cmdAngle := by unfold driveCmd; split <;> [skip; split] <;> rfl
@[simp] theorem driveCmd_cmdDir (d : Direction) (s : State) : (driveCmd d s).cmdDir = s.cmdDir := by unfold driveCmd; split <;> [skip; split] <;> rfl
@[simp] theorem driveCmd_cmdValid (d : Direction) (s : State) : (driveCmd d s).cmdValid = s.cmdValid := by unfold driveCmd; split <;> [skip; split] <;> rfl
@[simp] theorem driveCmd_cmdPending (d : Direction) (s : State) : (driveCmd d s).cmdPending = s.cmdPending := by unfold driveCmd; split <;> [skip; split] <;> rfl
@[simp] theorem driveCmd_curAngle (d : Direction) (s : State) : (driveCmd d s).curAngle = s.curAngle := by unfold driveCmd; split <;> [skip; split] <;> rfl
@[simp] theorem driveCmd_steerOutUs (d : Direction) (s : State) : (driveCmd d s).steerOutUs = s.steerOutUs := by unfold driveCmd; split <;> [skip; split] <;> rfl
@[simp] theorem driveCmd_indPos (d : Direction) (s : State) : (driveCmd d s).indPos = s.indPos := by unfold driveCmd; split <;> [skip; split] <;> rfl
@[simp] theorem driveCmd_indNeg (d : Direction) (s : State) : (driveCmd d s).indNeg = s.indNeg := by unfold driveCmd; split <;> [skip; split] <;> rfl
@[simp] theorem driveCmd_blinkState (d : Direction) (s : State) : (driveCmd d s).blinkState = s.blinkState := by unfold driveCmd; split <;> [skip; split] <;> rfl
@[simp] theorem driveCmd_blinkLastUs (d : Direction) (s : State) : (driveCmd d s).blinkLastUs = s.blinkLastUs := by unfold driveCmd; split <;> [skip; split] <;> rfl
@[simp] theorem driveCmd_nowUs (d : Direction) (s : State) : (driveCmd d s).nowUs = s.nowUs := by unfold driveCmd; split <;> [skip; split] <;> rfl
@[simp] theorem driveCmd_agenda (d : Direction) (s : State) : (driveCmd d s).agenda = s.agenda := by unfold driveCmd; split <;> [skip; split] <;> rfl
@[simp] theorem driveCmd_turn (d : Direction) (s : State) : (driveCmd d s).turn = s.turn := by unfold driveCmd; split <;> [skip; split] <;> rfl

/-! ## dwellService -/

@[simp] theorem dwellService_cfg (s : State) : (dwellService s).cfg = s.cfg := by unfold dwellService; split <;> rfl
@[simp] theorem dwellService_pwmIn (s : State) : (dwellService s).pwmIn = s.pwmIn := by unfold dwellService; split <;> rfl
@[simp] theorem dwellService_ch (s : State) : (dwellService s).ch = s.ch := by unfold dwellService; split <;> rfl
@[simp] theorem dwellService_mode (s : State) : (dwellService s).mode = s.mode := by unfold dwellService; split <;> rfl
@[simp] theorem dwellService_buf (s : State) : (dwellService s).buf = s.buf := by unfold dwellService; split <;> rfl
@[simp] theorem dwellService_len (s : State) : (dwellService s).len = s.len := by unfold dwellService; split <;> rfl
@[simp] theorem dwellService_cmdAngle (s : State) : (dwellService s).cmdAngle = s.cmdAngle := by unfold dwellService; split <;> rfl
@[simp] theorem dwellService_cmdDir (s : State) : (dwellService s).cmdDir = s.cmdDir := by unfold dwellService; split <;> rfl
@[simp] theorem dwellService_cmdValid (s : State) : (dwellService s).cmdValid = s.cmdValid := by unfold dwellService; split <;> rfl
@[simp] theorem dwellService_cmdPending (s : State) : (dwellService s).cmdPending = s.cmdPending := by unfold dwellService; split <;> rfl
@[simp] theorem dwellService_curAngle (s : State) : (dwellService s).curAngle = s.curAngle := by unfold dwellService; split <;> rfl
@[simp] theorem dwellService_curDir (s : State) : (dwellService s).curDir = s.curDir := by unfold dwellService; split <;> rfl
@[simp] theorem dwellService_steerOutUs (s : State) : (dwellService s).steerOutUs = s.steerOutUs := by unfold dwellService; split <;> rfl
@[simp] theorem dwellService_dwellStartUs (s : State) : (dwellService s).dwellStartUs = s.dwellStartUs := by unfold dwellService; split <;> rfl
@[simp] theorem dwellService_pendingDir (s : State) : (dwellService s).pendingDir = s.pendingDir := by unfold dwellService; split <;> rfl
@[simp] theorem dwellService_indPos (s : State) : (dwellService s).indPos = s.indPos := by unfold dwellService; split <;> rfl
@[simp] theorem dwellService_indNeg (s : State) : (dwellService s).indNeg = s.indNeg := by unfold dwellService; split <;> rfl
@[simp] theorem dwellService_blinkState (s : State) : (dwellService s).blinkState = s.blinkState := by unfold dwellService; split <;> rfl
@[simp] theorem dwellService_blinkLastUs (s : State) : (dwellService s).blinkLastUs = s.blinkLastUs := by unfold dwellService; split <;> rfl
@[simp] theorem dwellService_nowUs (s : State) : (dwellService s).nowUs = s.nowUs := by unfold dwellService; split <;> rfl
@[simp] theorem dwellService_agenda (s : State) : (dwellService s).agenda = s.agenda := by unfold dwellService; split <;> rfl
@[simp] theorem dwellService_turn (s : State) : (dwellService s).turn = s.turn := by unfold dwellService; split <;> rfl

/-! ## stopAll -/

@[simp] theorem stopAll_cfg (s : State) : (stopAll s).cfg = s.cfg := by simp [stopAll]
@[simp] theorem stopAll_pwmIn (s : State) : (stopAll s).pwmIn = s.pwmIn := by simp [stopAll]
@[simp] theorem stopAll_ch (s : State) : (stopAll s).ch = s.ch := by simp [stopAll]
@[simp] theorem stopAll_mode (s : State) : (stopAll s).mode = s.mode := by simp [stopAll]
@[simp] theorem stopAll_buf (s : State) : (stopAll s).buf = s.buf := by simp [stopAll]
@[simp] theorem stopAll_len (s : State) : (stopAll s).len = s.len := by simp [stopAll]
@[simp] theorem stopAll_cmdAngle (s : State) : (stopAll s).cmdAngle = s.cmdAngle := by simp [stopAll]
@[simp] theorem stopAll_cmdDir (s : State) : (stopAll s).cmdDir = s.cmdDir := by simp [stopAll]
@[simp] theorem stopAll_cmdValid (s : State) : (stopAll s).cmdValid = s.cmdValid := by simp [stopAll]
@[simp] theorem stopAll_blinkState (s : State) : (stopAll s).blinkState = s.blinkState := by simp [stopAll]
@[simp] theorem stopAll_blinkLastUs (s : State) : (stopAll s).blinkLastUs = s.blinkLastUs := by simp [stopAll]
@[simp] theorem stopAll_nowUs (s : State) : (stopAll s).nowUs = s.nowUs := by simp [stopAll]
@[simp] theorem stopAll_agenda (s : State) : (stopAll s).agenda = s.agenda := by simp [stopAll]
@[simp] theorem stopAll_turn (s : State) : (stopAll s).turn = s.turn := by simp [stopAll]

/-! ## transition -/

@[simp] theorem transition_cfg (m : ActiveMode) (s : State) : (transition m s).cfg = s.cfg := by simp [transition]
@[simp] theorem transition_pwmIn (m : ActiveMode) (s : State) : (transition m s).pwmIn = s.pwmIn := by simp [transition]
@[simp] theorem transition_ch (m : ActiveMode) (s : State) : (transition m s).ch = s.ch := by simp [transition]
@[simp] theorem transition_buf (m : ActiveMode) (s : State) : (transition m s).buf = s.buf := by simp [transition]
@[simp] theorem transition_len (m : ActiveMode) (s : State) : (transition m s).len = s.len := by simp [transition]
@[simp] theorem transition_cmdAngle (m : ActiveMode) (s : State) : (transition m s).cmdAngle = s.cmdAngle := by simp [transition]
@[simp] theorem transition_cmdDir (m : ActiveMode) (s : State) : (transition m s).cmdDir = s.cmdDir := by simp [transition]
@[simp] theorem transition_cmdValid (m : ActiveMode) (s : State) : (transition m s).cmdValid = s.cmdValid := by simp [transition]
@[simp] theorem transition_blinkState (m : ActiveMode) (s : State) : (transition m s).blinkState = s.blinkState := by simp [transition]
@[simp] theorem transition_blinkLastUs (m : ActiveMode) (s : State) : (transition m s).blinkLastUs = s.blinkLastUs := by simp [transition]
@[simp] theorem transition_nowUs (m : ActiveMode) (s : State) : (transition m s).nowUs = s.nowUs := by simp [transition]
@[simp] theorem transition_agenda (m : ActiveMode) (s : State) : (transition m s).agenda = s.agenda := by simp [transition]
@[simp] theorem transition_turn (m : ActiveMode) (s : State) : (transition m s).turn = s.turn := by simp [transition]

/-! ## arbEval_snd -/

@[simp] theorem arbEval_snd_cfg (s : State) : ((arbEval s).2).cfg = s.cfg := by simp only [arbEval]; split <;> [split; skip] <;> simp
@[simp] theorem arbEval_snd_pwmIn (s : State) : ((arbEval s).2).pwmIn = s.pwmIn := by simp only [arbEval]; split <;> [split; skip] <;> simp
@[simp] theorem arbEval_snd_buf (s : State) : ((arbEval s).2).buf = s.buf := by simp only [arbEval]; split <;> [split; skip] <;> simp
@[simp] theorem arbEval_snd_len (s : State) : ((arbEval s).2).len = s.len := by simp only [arbEval]; split <;> [split; skip] <;> simp
@[simp] theorem arbEval_snd_cmdAngle (s : State) : ((arbEval s).2).cmdAngle = s.cmdAngle := by simp only [arbEval]; split <;> [split; skip] <;> simp
@[simp] theorem arbEval_snd_cmdDir (s : State) : ((arbEval s).2).cmdDir = s.cmdDir := by simp only [arbEval]; split <;> [split; skip] <;> simp
@[simp] theorem arbEval_snd_cmdValid (s : State) : ((arbEval s).2).cmdValid = s.cmdValid := by simp only [arbEval]; split <;> [split; skip] <;> simp
@[simp] theorem arbEval_snd_blinkState (s : State) : ((arbEval s).2).blinkState = s.blinkState := by simp only [arbEval]; split <;> [split; skip] <;> simp
@[simp] theorem arbEval_snd_blinkLastUs (s : State) : ((arbEval s).2).blinkLastUs = s.blinkLastUs := by simp only [arbEval]; split <;> [split; skip] <;> simp
@[simp] theorem arbEval_snd_nowUs (s : State) : ((arbEval s).2).nowUs = s.nowUs := by simp only [arbEval]; split <;> [split; skip] <;> simp
@[simp] theorem arbEval_snd_agenda (s : State) : ((arbEval s).2).agenda = s.agenda := by simp only [arbEval]; split <;> [split; skip] <;> simp
@[simp] theorem arbEval_snd_turn (s : State) : ((arbEval s).2).turn = s.turn := by simp only [arbEval]; split <;> [split; skip] <;> simp

/-! ## undetHold -/

@[simp] theorem undetHold_cfg (s : State) : (undetHold s).cfg = s.cfg := by simp [undetHold]
@[simp] theorem undetHold_pwmIn (s : State) : (undetHold s).pwmIn = s.pwmIn := by simp [undetHold]
@[simp] theorem undetHold_ch (s : State) : (undetHold s).ch = s.ch := by simp [undetHold]
@[simp] theorem undetHold_mode (s : State) : (undetHold s).mode = s.mode := by simp [undetHold]
@[simp] theorem undetHold_buf (s : State) : (undetHold s).buf = s.buf := by simp [undetHold]
@[simp] theorem undetHold_len (s : State) : (undetHold s).len = s.len := by simp [undetHold]
@[simp] theorem undetHold_cmdAngle (s : State) : (undetHold s).cmdAngle = s.cmdAngle := by simp [undetHold]
@[simp] theorem undetHold_cmdDir (s : State) : (undetHold s).cmdDir = s.cmdDir := by simp [undetHold]
@[simp] theorem undetHold_cmdValid (s : State) : (undetHold s).cmdValid = s.cmdValid := by simp [undetHold]
@[simp] theorem undetHold_indPos (s : State) : (undetHold s).indPos = s.indPos := by simp [undetHold]
@[simp] theorem undetHold_indNeg (s : State) : (undetHold s).indNeg = s.indNeg := by simp [undetHold]
@[simp] theorem undetHold_blinkState (s : State) : (undetHold s).blinkState = s.blinkState := by simp [undetHold]
@[simp] theorem undetHold_blinkLastUs (s : State) : (undetHold s).blinkLastUs = s.blinkLastUs := by simp [undetHold]
@[simp] theorem undetHold_nowUs (s : State) : (undetHold s).nowUs = s.nowUs := by simp [undetHold]
@[simp] theorem undetHold_agenda (s : State) : (undetHold s).agenda = s.agenda := by simp [undetHold]
@[simp] theorem undetHold_turn (s : State) : (undetHold s).turn = s.turn := by simp [undetHold]

/-! ## autoApply -/

@[simp] theorem autoApply_cfg (s : State) : (autoApply s).cfg = s.cfg := by unfold autoApply; split <;> simp
@[simp] theorem autoApply_pwmIn (s : State) : (autoApply s).pwmIn = s.pwmIn := by unfold autoApply; split <;> simp
@[simp] theorem autoApply_ch (s : State) : (autoApply s).ch = s.ch := by unfold autoApply; split <;> simp
@[simp] theorem autoApply_mode (s : State) : (autoApply s).mode = s.mode := by unfold autoApply; split <;> simp
@[simp] theorem autoApply_buf (s : State) : (autoApply s).buf = s.buf := by unfold autoApply; split <;> simp
@[simp] theorem autoApply_len (s : State) : (autoApply s).len = s.len := by unfold autoApply; split <;> simp
@[simp] theorem autoApply_cmdAngle (s : State) : (autoApply s).cmdAngle = s.cmdAngle := by unfold autoApply; split <;> simp
@[simp] theorem autoApply_cmdDir (s : State) : (autoApply s).cmdDir = s.cmdDir := by unfold autoApply; split <;> simp
@[simp] theorem autoApply_cmdValid (s : State) : (autoApply s).cmdValid = s.cmdValid := by unfold autoApply; split <;> simp
@[simp] theorem autoApply_indPos (s : State) : (autoApply s).indPos = s.indPos := by unfold autoApply; split <;> simp
@[simp] theorem autoApply_indNeg (s : State) : (autoApply s).indNeg = s.indNeg := by unfold autoApply; split <;> simp
@[simp] theorem autoApply_blinkState (s : State) : (autoApply s).blinkState = s.blinkState := by unfold autoApply; split <;> simp
@[simp] theorem autoApply_blinkLastUs (s : State) : (autoApply s).blinkLastUs = s.blinkLastUs := by unfold autoApply; split <;> simp
@[simp] theorem autoApply_nowUs (s : State) : (autoApply s).nowUs = s.nowUs := by unfold autoApply; split <;> simp
@[simp] theorem autoApply_agenda (s : State) : (autoApply s).agenda = s.agenda := by unfold autoApply; split <;> simp
@[simp] theorem autoApply_turn (s : State) : (autoApply s).turn = s.turn := by unfold autoApply; split <;> simp

/-! ## manualSteer -/

@[simp] theorem manualSteer_cfg (s : State) : (manualSteer s).cfg = s.cfg := by unfold manualSteer; split <;> simp
@[simp] theorem manualSteer_pwmIn (s : State) : (manualSteer s).pwmIn = s.pwmIn := by unfold manualSteer; split <;> simp
@[simp] theorem manualSteer_mode (s : State) : (manualSteer s).mode = s.mode := by unfold manualSteer; split <;> simp
@[simp] theorem manualSteer_buf (s : State) : (manualSteer s).buf = s.buf := by unfold manualSteer; split <;> simp
@[simp] theorem manualSteer_len (s : State) : (manualSteer s).len = s.len := by unfold manualSteer; split <;> simp
@[simp] theorem manualSteer_cmdAngle (s : State) : (manualSteer s).cmdAngle = s.cmdAngle := by unfold manualSteer; split <;> simp
@[simp] theorem manualSteer_cmdDir (s : State) : (manualSteer s).cmdDir = s.cmdDir := by unfold manualSteer; split <;> simp
@[simp] theorem manualSteer_cmdValid (s : State) : (manualSteer s).cmdValid = s.cmdValid := by unfold manualSteer; split <;> simp
@[simp] theorem manualSteer_cmdPending (s : State) : (manualSteer s).cmdPending = s.cmdPending := by unfold manualSteer; split <;> simp
@[simp] theorem manualSteer_curAngle (s : State) : (manualSteer s).curAngle = s.curAngle := by unfold manualSteer; split <;> simp
@[simp] theorem manualSteer_curDir (s : State) : (manualSteer s).curDir = s.curDir := by unfold manualSteer; split <;> simp
@[simp] theorem manualSteer_prevDir (s : State) : (manualSteer s).prevDir = s.prevDir := by unfold manualSteer; split <;> simp
@[simp] theorem manualSteer_driveOutUs (s : State) : (manualSteer s).driveOutUs = s.driveOutUs := by unfold manualSteer; split <;> simp
@[simp] theorem manualSteer_dwellActive (s : State) : (manualSteer s).dwellActive = s.dwellActive := by unfold manualSteer; split <;> simp
@[simp] theorem manualSteer_dwellStartUs (s : State) : (manualSteer s).dwellStartUs = s.dwellStartUs := by unfold manualSteer; split <;> simp
@[simp] theorem manualSteer_pendingDir (s : State) : (manualSteer s).pendingDir = s.pendingDir := by unfold manualSteer; split <;> simp
@[simp] theorem manualSteer_indPos (s : State) : (manualSteer s).indPos = s.indPos := by unfold manualSteer; split <;> simp
@[simp] theorem manualSteer_indNeg (s : State) : (manualSteer s).indNeg = s.indNeg := by unfold manualSteer; split <;> simp
@[simp] theorem manualSteer_blinkState (s : State) : (manualSteer s).blinkState = s.blinkState := by unfold manualSteer; split <;> simp
@[simp] theorem manualSteer_blinkLastUs (s : State) : (manualSteer s).blinkLastUs = s.blinkLastUs := by unfold manualSteer; split <;> simp
@[simp] theorem manualSteer_nowUs (s : State) : (manualSteer s).nowUs = s.nowUs := by unfold manualSteer; split <;> simp
@[simp] theorem manualSteer_agenda (s : State) : (manualSteer s).agenda = s.agenda := by unfold manualSteer; split <;> simp
@[simp] theorem manualSteer_turn (s : State) : (manualSteer s).turn = s.turn := by unfold manualSteer; split <;> simp

/-! ## manualDrive -/

@[simp] theorem manualDrive_cfg (s : State) : (manualDrive s).cfg = s.cfg := by unfold manualDrive; split <;> simp
@[simp] theorem manualDrive_pwmIn (s : State) : (manualDrive s).pwmIn = s.pwmIn := by unfold manualDrive; split <;> simp
@[simp] theorem manualDrive_mode (s : State) : (manualDrive s).mode = s.mode := by unfold manualDrive; split <;> simp
@[simp] theorem manualDrive_buf (s : State) : (manualDrive s).buf = s.buf := by unfold manualDrive; split <;> simp
@[simp] theorem manualDrive_len (s : State) : (manualDrive s).len = s.len := by unfold manualDrive; split <;> simp
@[simp] theorem manualDrive_cmdAngle (s : State) : (manualDrive s).cmdAngle = s.cmdAngle := by unfold manualDrive; split <;> simp
@[simp] theorem manualDrive_cmdDir (s : State) : (manualDrive s).cmdDir = s.cmdDir := by unfold manualDrive; split <;> simp
@[simp] theorem manualDrive_cmdValid (s : State) : (manualDrive s).cmdValid = s.cmdValid := by unfold manualDrive; split <;> simp
@[simp] theorem manualDrive_cmdPending (s : State) : (manualDrive s).cmdPending = s.cmdPending := by unfold manualDrive; split <;> simp
@[simp] theorem manualDrive_curAngle (s : State) : (manualDrive s).curAngle = s.curAngle := by unfold manualDrive; split <;> simp
@[simp] theorem manualDrive_curDir (s : State) : (manualDrive s).curDir = s.curDir := by unfold manualDrive; split <;> simp
@[simp] theorem manualDrive_prevDir (s : State) : (manualDrive s).prevDir = s.prevDir := by unfold manualDrive; split <;> simp
@[simp] theorem manualDrive_steerOutUs (s : State) : (manualDrive s).steerOutUs = s.steerOutUs := by unfold manualDrive; split <;> simp
@[simp] theorem manualDrive_dwellActive (s : State) : (manualDrive s).dwellActive = s.dwellActive := by unfold manualDrive; split <;> simp
@[simp] theorem manualDrive_dwellStartUs (s : State) : (manualDrive s).dwellStartUs = s.dwellStartUs := by unfold manualDrive; split <;> simp
@[simp] theorem manualDrive_pendingDir (s : State) : (manualDrive s).pendingDir = s.pendingDir := by unfold manualDrive; split <;> simp
@[simp] theorem manualDrive_indPos (s : State) : (manualDrive s).indPos = s.indPos := by unfold manualDrive; split <;> simp
@[simp] theorem manualDrive_indNeg (s : State) : (manualDrive s).indNeg = s.indNeg := by unfold manualDrive; split <;> simp
@[simp] theorem manualDrive_blinkState (s : State) : (manualDrive s).blinkState = s.blinkState := by unfold manualDrive; split <;> simp
@[simp] theorem manualDrive_blinkLastUs (s : State) : (manualDrive s).blinkLastUs = s.blinkLastUs := by unfold manualDrive; split <;> simp
@[simp] theorem manualDrive_nowUs (s : State) : (manualDrive s).nowUs = s.nowUs := by unfold manualDrive; split <;> simp
@[simp] theorem manualDrive_agenda (s : State) : (manualDrive s).agenda = s.agenda := by unfold manualDrive; split <;> simp
@[simp] theorem manualDrive_turn (s : State) : (manualDrive s).turn = s.turn := by unfold manualDrive; split <;> simp

/-! ## blinkAdvance -/

@[simp] theorem blinkAdvance_cfg (s : State) : (blinkAdvance s).cfg = s.cfg := by unfold blinkAdvance; split <;> rfl
@[simp] theorem blinkAdvance_pwmIn (s : State) : (blinkAdvance s).pwmIn = s.pwmIn := by unfold blinkAdvance; split <;> rfl
@[simp] theorem blinkAdvance_ch (s : State) : (blinkAdvance s).ch = s.ch := by unfold blinkAdvance; split <;> rfl
@[simp] theorem blinkAdvance_mode (s : State) : (blinkAdvance s).mode = s.mode := by unfold blinkAdvance; split <;> rfl
@[simp] theorem blinkAdvance_buf (s : State) : (blinkAdvance s).buf = s.buf := by unfold blinkAdvance; split <;> rfl
@[simp] theorem blinkAdvance_len (s : State) : (blinkAdvance s).len = s.len := by unfold blinkAdvance; split <;> rfl
@[simp] theorem blinkAdvance_cmdAngle (s : State) : (blinkAdvance s).cmdAngle = s.cmdAngle := by unfold blinkAdvance; split <;> rfl
@[simp] theorem blinkAdvance_cmdDir (s : State) : (blinkAdvance s).cmdDir = s.cmdDir := by unfold blinkAdvance; split <;> rfl
@[simp] theorem blinkAdvance_cmdValid (s : State) : (blinkAdvance s).cmdValid = s.cmdValid := by unfold blinkAdvance; split <;> rfl
@[simp] theorem blinkAdvance_cmdPending (s : State) : (blinkAdvance s).cmdPending = s.cmdPending := by unfold blinkAdvance; split <;> rfl
@[simp] theorem blinkAdvance_curAngle (s : State) : (blinkAdvance s).curAngle = s.curAngle := by unfold blinkAdvance; split <;> rfl
@[simp] theorem blinkAdvance_curDir (s : State) : (blinkAdvance s).curDir = s.curDir := by unfold blinkAdvance; split <;> rfl
@[simp] theorem blinkAdvance_prevDir (s : State) : (blinkAdvance s).prevDir = s.prevDir := by unfold blinkAdvance; split <;> rfl
@[simp] theorem blinkAdvance_steerOutUs (s : State) : (blinkAdvance s).steerOutUs = s.steerOutUs := by unfold blinkAdvance; split <;> rfl
@[simp] theorem blinkAdvance_driveOutUs (s : State) : (blinkAdvance s).driveOutUs = s.driveOutUs := by unfold blinkAdvance; split <;> rfl
@[simp] theorem blinkAdvance_dwellActive (s : State) : (blinkAdvance s).dwellActive = s.dwellActive := by unfold blinkAdvance; split <;> rfl
@[simp] theorem blinkAdvance_dwellStartUs (s : State) : (blinkAdvance s).dwellStartUs = s.dwellStartUs := by unfold blinkAdvance; split <;> rfl
@[simp] theorem blinkAdvance_pendingDir (s : State) : (blinkAdvance s).pendingDir = s.pendingDir := by unfold blinkAdvance; split <;> rfl
@[simp] theorem blinkAdvance_indPos (s : State) : (blinkAdvance s).indPos = s.indPos := by unfold blinkAdvance; split <;> rfl
@[simp] theorem blinkAdvance_indNeg (s : State) : (blinkAdvance s).indNeg = s.indNeg := by unfold blinkAdvance; split <;> rfl
@[simp] theorem blinkAdvance_nowUs (s : State) : (blinkAdvance s).nowUs = s.nowUs := by unfold blinkAdvance; split <;> rfl
@[simp] theorem blinkAdvance_trace (s : State) : (blinkAdvance s).trace = s.trace := by unfold blinkAdvance; split <;> rfl
@[simp] theorem blinkAdvance_agenda (s : State) : (blinkAdvance s).agenda = s.agenda := by unfold blinkAdvance; split <;> rfl
@[simp] theorem blinkAdvance_turn (s : State) : (blinkAdvance s).turn = s.turn := by unfold blinkAdvance; split <;> rfl

/-! ## indUpdate -/

@[simp] theorem indUpdate_cfg (s : State) : (indUpdate s).cfg = s.cfg := by simp only [indUpdate]; split <;> [skip; split] <;> simp
@[simp] theorem indUpdate_pwmIn (s : State) : (indUpdate s).pwmIn = s.pwmIn := by simp only [indUpdate]; split <;> [skip; split] <;> simp
@[simp] theorem indUpdate_ch (s : State) : (indUpdate s).ch = s.ch := by simp only [indUpdate]; split <;> [skip; split] <;> simp
@[simp] theorem indUpdate_mode (s : State) : (indUpdate s).mode = s.mode := by simp only [indUpdate]; split <;> [skip; split] <;> simp
@[simp] theorem indUpdate_buf (s : State) : (indUpdate s).buf = s.buf := by simp only [indUpdate]; split <;> [skip; split] <;> simp
@[simp] theorem indUpdate_len (s : State) : (indUpdate s).len = s.len := by simp only [indUpdate]; split <;> [skip; split] <;> simp
@[simp] theorem indUpdate_cmdAngle (s : State) : (indUpdate s).cmdAngle = s.cmdAngle := by simp only [indUpdate]; split <;> [skip; split] <;> simp
@[simp] theorem indUpdate_cmdDir (s : State) : (indUpdate s).cmdDir = s.cmdDir := by simp only [indUpdate]; split <;> [skip; split] <;> simp
@[simp] theorem indUpdate_cmdValid (s : State) : (indUpdate s).cmdValid = s.cmdValid := by simp only [indUpdate]; split <;> [skip; split] <;> simp
@[simp] theorem indUpdate_cmdPending (s : State) : (indUpdate s).cmdPending = s.cmdPending := by simp only [indUpdate]; split <;> [skip; split] <;> simp
@[simp] theorem indUpdate_curAngle (s : State) : (indUpdate s).curAngle = s.curAngle := by simp only [indUpdate]; split <;> [skip; split] <;> simp
@[simp] theorem indUpdate_curDir (s : State) : (indUpdate s).curDir = s.curDir := by simp only [indUpdate]; split <;> [skip; split] <;> simp
@[simp] theorem indUpdate_prevDir (s : State) : (indUpdate s).prevDir = s.prevDir := by simp only [indUpdate]; split <;> [skip; split] <;> simp
@[simp] theorem indUpdate_steerOutUs (s : State) : (indUpdate s).steerOutUs = s.steerOutUs := by simp only [indUpdate]; split <;> [skip; split] <;> simp
@[simp] theorem indUpdate_driveOutUs (s : State) : (indUpdate s).driveOutUs = s.driveOutUs := by simp only [indUpdate]; split <;> [skip; split] <;> simp
@[simp] theorem indUpdate_dwellActive (s : State) : (indUpdate s).dwellActive = s.dwellActive := by simp only [indUpdate]; split <;> [skip; split] <;> simp
@[simp] theorem indUpdate_dwellStartUs (s : State) : (indUpdate s).dwellStartUs = s.dwellStartUs := by simp only [indUpdate]; split <;> [skip; split] <;> simp
@[simp] theorem indUpdate_pendingDir (s : State) : (indUpdate s).pendingDir = s.pendingDir := by simp only [indUpdate]; split <;> [skip; split] <;> simp
@[simp] theorem indUpdate_nowUs (s : State) : (indUpdate s).nowUs = s.nowUs := by simp only [indUpdate]; split <;> [skip; split] <;> simp
@[simp] theorem indUpdate_trace (s : State) : (indUpdate s).trace = s.trace := by simp only [indUpdate]; split <;> [skip; split] <;> simp
@[simp] theorem indUpdate_agenda (s : State) : (indUpdate s).agenda = s.agenda := by simp only [indUpdate]; split <;> [skip; split] <;> simp
@[simp] theorem indUpdate_turn (s : State) : (indUpdate s).turn = s.turn := by simp only [indUpdate]; split <;> [skip; split] <;> simp

/-! ## handler -/

@[simp] theorem handler_cfg (s : State) : (handler s).cfg = s.cfg := by unfold handler; split <;> simp
@[simp] theorem handler_pwmIn (s : State) : (handler s).pwmIn = s.pwmIn := by unfold handler; split <;> simp
@[simp] theorem handler_mode (s : State) : (handler s).mode = s.mode := by unfold handler; split <;> simp
@[simp] theorem handler_buf (s : State) : (handler s).buf = s.buf := by unfold handler; split <;> simp
@[simp] theorem handler_len (s : State) : (handler s).len = s.len := by unfold handler; split <;> simp
@[simp] theorem handler_cmdAngle (s : State) : (handler s).cmdAngle = s.cmdAngle := by unfold handler; split <;> simp
@[simp] theorem handler_cmdDir (s : State) : (handler s).cmdDir = s.cmdDir := by unfold handler; split <;> simp
@[simp] theorem handler_cmdValid (s : State) : (handler s).cmdValid = s.cmdValid := by unfold handler; split <;> simp
@[simp] theorem handler_indPos (s : State) : (handler s).indPos = s.indPos := by unfold handler; split <;> simp
@[simp] theorem handler_indNeg (s : State) : (handler s).indNeg = s.indNeg := by unfold handler; split <;> simp
@[simp] theorem handler_blinkState (s : State) : (handler s).blinkState = s.blinkState := by unfold handler; split <;> simp
@[simp] theorem handler_blinkLastUs (s : State) : (handler s).blinkLastUs = s.blinkLastUs := by unfold handler; split <;> simp
@[simp] theorem handler_nowUs (s : State) : (handler s).nowUs = s.nowUs := by unfold handler; split <;> simp
@[simp] theorem handler_agenda (s : State) : (handler s).agenda = s.agenda := by unfold handler; split <;> simp
@[simp] theorem handler_turn (s : State) : (handler s).turn = s.turn := by unfold handler; split <;> simp

/-! ## indicatorPhase -/

@[simp] theorem indicatorPhase_cfg (s : State) : (indicatorPhase s).cfg = s.cfg := by unfold indicatorPhase; split <;> simp
@[simp] theorem indicatorPhase_pwmIn (s : State) : (indicatorPhase s).pwmIn = s.pwmIn := by unfold indicatorPhase; split <;> simp
@[simp] theorem indicatorPhase_ch (s : State) : (indicatorPhase s).ch = s.ch := by unfold indicatorPhase; split <;> simp
@[simp] theorem indicatorPhase_mode (s : State) : (indicatorPhase s).mode = s.mode := by unfold indicatorPhase; split <;> simp
@[simp] theorem indicatorPhase_buf (s : State) : (indicatorPhase s).buf = s.buf := by unfold indicatorPhase; split <;> simp
@[simp] theorem indicatorPhase_len (s : State) : (indicatorPhase s).len = s.len := by unfold indicatorPhase; split <;> simp
@[simp] theorem indicatorPhase_cmdAngle (s : State) : (indicatorPhase s).cmdAngle = s.cmdAngle := by unfold indicatorPhase; split <;> simp
@[simp] theorem indicatorPhase_cmdDir (s : State) : (indicatorPhase s).cmdDir = s.cmdDir := by unfold indicatorPhase; split <;> simp
@[simp] theorem indicatorPhase_cmdValid (s : State) : (indicatorPhase s).cmdValid = s.cmdValid := by unfold indicatorPhase; split <;> simp
@[simp] theorem indicatorPhase_cmdPending (s : State) : (indicatorPhase s).cmdPending = s.cmdPending := by unfold indicatorPhase; split <;> simp
@[simp] theorem indicatorPhase_curAngle (s : State) : (indicatorPhase s).curAngle = s.curAngle := by unfold indicatorPhase; split <;> simp
@[simp] theorem indicatorPhase_curDir (s : State) : (indicatorPhase s).curDir = s.curDir := by unfold indicatorPhase; split <;> simp
@[simp] theorem indicatorPhase_prevDir (s : State) : (indicatorPhase s).prevDir = s.prevDir := by unfold indicatorPhase; split <;> simp
@[simp] theorem indicatorPhase_steerOutUs (s : State) : (indicatorPhase s).steerOutUs = s.steerOutUs := by unfold indicatorPhase; split <;> simp
@[simp] theorem indicatorPhase_driveOutUs (s : State) : (indicatorPhase s).driveOutUs = s.driveOutUs := by unfold indicatorPhase; split <;> simp
@[simp] theorem indicatorPhase_dwellActive (s : State) : (indicatorPhase s).dwellActive = s.dwellActive := by unfold indicatorPhase; split <;> simp
@[simp] theorem indicatorPhase_dwellStartUs (s : State) : (indicatorPhase s).dwellStartUs = s.dwellStartUs := by unfold indicatorPhase; split <;> simp
@[simp] theorem indicatorPhase_pendingDir (s : State) : (indicatorPhase s).pendingDir = s.pendingDir := by unfold indicatorPhase; split <;> simp
@[simp] theorem indicatorPhase_nowUs (s : State) : (indicatorPhase s).nowUs = s.nowUs := by unfold indicatorPhase; split <;> simp
@[simp] theorem indicatorPhase_trace (s : State) : (indicatorPhase s).trace = s.trace := by unfold indicatorPhase; split <;> simp
@[simp] theorem indicatorPhase_agenda (s : State) : (indicatorPhase s).agenda = s.agenda := by unfold indicatorPhase; split <;> simp
@[simp] theorem indicatorPhase_turn (s : State) : (indicatorPhase s).turn = s.turn := by unfold indicatorPhase; split <;> simp

/-! ## cycle -/

@[simp] theorem cycle_cfg (s : State) : (cycle s).cfg = s.cfg := by unfold cycle; split <;> simp
@[simp] theorem cycle_pwmIn (s : State) : (cycle s).pwmIn = s.pwmIn := by unfold cycle; split <;> simp
@[simp] theorem cycle_buf (s : State) : (cycle s).buf = s.buf := by unfold cycle; split <;> simp
@[simp] theorem cycle_len (s : State) : (cycle s).len = s.len := by unfold cycle; split <;> simp
@[simp] theorem cycle_cmdAngle (s : State) : (cycle s).cmdAngle = s.cmdAngle := by unfold cycle; split <;> simp
@[simp] theorem cycle_cmdDir (s : State) : (cycle s).cmdDir = s.cmdDir := by unfold cycle; split <;> simp
@[simp] theorem cycle_cmdValid (s : State) : (cycle s).cmdValid = s.cmdValid := by unfold cycle; split <;> simp
@[simp] theorem cycle_nowUs (s : State) : (cycle s).nowUs = s.nowUs := by unfold cycle; split <;> simp
@[simp] theorem cycle_agenda (s : State) : (cycle s).agenda = s.agenda := by unfold cycle; split <;> simp
@[simp] theorem cycle_turn (s : State) : (cycle s).turn = s.turn := by unfold cycle; split <;> simp

/-! ## resetEvent -/

@[simp] theorem resetEvent_cfg (s : State) : (resetEvent s).cfg = s.cfg := rfl
@[simp] theorem resetEvent_pwmIn (s : State) : (resetEvent s).pwmIn = s.pwmIn := rfl
@[simp] theorem resetEvent_trace (s : State) : (resetEvent s).trace = s.trace := rfl
@[simp] theorem resetEvent_agenda (s : State) : (resetEvent s).agenda = s.agenda := rfl
@[simp] theorem resetEvent_turn (s : State) : (resetEvent s).turn = s.turn := rfl

end Sys2Proof.Machine
end

