-- ==== Sys2Proof/Laws/Ops.lean ====
section
/-! SUPPORT. What each shared operation does, said once per case, for the provers to cite in the place of unfolding. -/

namespace Sys2Proof.Machine

/-! ## Primitives -/

theorem clamp_eq_max_min (v : Int) {lo hi : Int} (h : lo ≤ hi) : clamp v lo hi = max lo (min hi v) := by
  unfold clamp
  split
  · omega
  · split <;> omega

theorem clamp_bounds (v : Int) {lo hi : Int} (h : lo ≤ hi) : lo ≤ clamp v lo hi ∧ clamp v lo hi ≤ hi := by
  rw [clamp_eq_max_min v h]
  omega

theorem tdiv_eq (a b : Int) : tdiv a b = Int.tdiv a b := by
  unfold tdiv
  split
  · rename_i ha
    rw [Int.tdiv_eq_ediv_of_nonneg ha]
  · rename_i ha
    have h1 : Int.tdiv (-a) b = -a / b := Int.tdiv_eq_ediv_of_nonneg (by omega)
    rw [← h1, Int.neg_tdiv, neg_neg]

theorem elapsed_toNat (a b : Us) : (elapsed a b).toNat = (a.toNat + 4294967296 - b.toNat) % 4294967296 := by
  have ha := a.isLt
  have hb := b.isLt
  simp only [elapsed, BitVec.toNat_sub]
  simp only [tsW] at *
  omega

theorem usInt_nonneg (w : Us) : 0 ≤ usInt w := by simp [usInt]

/-! ## Configuration -/

theorem valid_domain {g : Config} (h : g.Valid) : g.domainMin < g.domainMax := by
  by_contra hc
  simp [Config.Valid, configProblem, hc] at h

theorem valid_output {g : Config} (h : g.Valid) : g.outputMin < g.outputMax := by
  by_contra hc
  simp [Config.Valid, configProblem, hc, valid_domain h] at h

theorem valid_divisor {g : Config} (h : g.Valid) : 1 ≤ g.manualDivisor := by
  by_contra hc
  simp [Config.Valid, configProblem, hc, valid_domain h, valid_output h] at h

theorem valid_dwell {g : Config} (h : g.Valid) : 0 ≤ g.reversalDwellMs ∧ g.reversalDwellMs * 1000 < 2 ^ 31 := by
  by_contra hc
  have h1 : ¬ (0 ≤ g.reversalDwellMs ∧ g.reversalDwellMs * 1000 < 2 ^ 31) := hc
  simp only [Config.Valid, configProblem, valid_domain h, valid_output h, valid_divisor h, not_true_eq_false, if_false,
    h1, not_false_eq_true, if_true] at h
  cases h

theorem mid_bounds (g : Config) :
    2 * mid g ≤ g.domainMin + g.domainMax ∧ g.domainMin + g.domainMax < 2 * mid g + 2 := by
  unfold mid
  omega

theorem clampDomain_bounds {g : Config} (h : g.Valid) (v : Int) :
    g.domainMin ≤ clampDomain g v ∧ clampDomain g v ≤ g.domainMax :=
  clamp_bounds v (le_of_lt (valid_domain h))

theorem mid_in_domain {g : Config} (h : g.Valid) : g.domainMin ≤ mid g ∧ mid g ≤ g.domainMax := by
  have := valid_domain h
  unfold mid
  omega

/-! ## Channels -/

theorem pinFall_armed {c : Channel} {s : State} (h : (s.ch.get c).armed = true) :
    pinFall c s = setChannel c { s.ch.get c with
      latestWidthUs := elapsed s.nowUs (s.ch.get c).riseTsUs, fresh := true } s := by simp [pinFall, h]

theorem pinFall_unarmed {c : Channel} {s : State} (h : (s.ch.get c).armed = false) : pinFall c s = s := by
  simp [pinFall, h]

@[simp] theorem pinEvent_pwmIn (c : Channel) (v : Bool) (s : State) :
    (pinEvent c v s).pwmIn = s.pwmIn.set c v := by
  simp only [pinEvent]
  split
  · rfl
  · split <;> simp

/-- The record a PIN event leaves in its channel. -/
theorem pinEvent_ch (c : Channel) (v : Bool) (s : State) : (pinEvent c v s).ch = s.ch.set c
    (if v = (s.ch.get c).line then s.ch.get c
     else if v then { s.ch.get c with line := true, riseTsUs := s.nowUs, armed := true }
     else if (s.ch.get c).armed then
       { s.ch.get c with line := false, latestWidthUs := elapsed s.nowUs (s.ch.get c).riseTsUs, fresh := true }
     else { s.ch.get c with line := false }) := by
  cases h1 : v <;> cases h2 : (s.ch.get c).line <;> cases h3 : (s.ch.get c).armed <;>
    cases c <;> simp_all [pinEvent, pinRise, pinFall, setChannel, PerChannel.get, PerChannel.set]

/-! ## The line buffer -/

theorem storeByte_room {s : State} (b : Byte) (h : s.len.val < 31) :
    storeByte b s = { s with buf := s.buf.set s.len.val b s.len.isLt, len := ⟨s.len.val + 1, by omega⟩ } := by
  simp [storeByte, h]

theorem storeByte_full {s : State} (b : Byte) (h : s.len.val = 31) : storeByte b s = { s with len := 0 } := by
  simp [storeByte, h]

theorem lineText_length (s : State) : (lineText s).length = s.len.val := by
  have := s.len.isLt
  simp [lineText]

theorem lineText_storeByte {s : State} (b : Byte) (h : s.len.val < 31) :
    lineText (storeByte b s) = lineText s ++ [b] := by
  have hl := s.len.isLt
  rw [storeByte_room b h]
  simp only [lineText, Vector.toList_set]
  rw [List.take_add_one, List.take_set_of_le (le_refl _)]
  congr 1
  rw [List.getElem?_set_self (by simp)]
  rfl

theorem lineText_empty {s : State} (h : s.len = 0) : lineText s = [] := by simp [lineText, h]

/-! ## Actuators -/

theorem driveCmd_dwell {s : State} (d : Direction) (h : s.dwellActive = true) :
    driveCmd d s = { s with curDir := d, pendingDir := d } := by simp [driveCmd, h]

theorem driveCmd_reversal {s : State} {d : Direction} (h : s.dwellActive = false) (hr : isReversal s.prevDir d = true) :
    driveCmd d s = { s with curDir := d, dwellActive := true, dwellStartUs := s.nowUs, pendingDir := d,
                            driveOutUs := s.cfg.stopPulse, trace := s.trace ++ [.driveWrite s.cfg.stopPulse] } := by
  simp [driveCmd, h, hr, writeDrive, emit]

theorem driveCmd_direct {s : State} {d : Direction} (h : s.dwellActive = false) (hr : isReversal s.prevDir d = false) :
    driveCmd d s = { s with curDir := d, prevDir := d, driveOutUs := drivePulse s.cfg d,
                            trace := s.trace ++ [.driveWrite (drivePulse s.cfg d)] } := by
  simp [driveCmd, h, hr, writeDrive, emit]

@[simp] theorem isReversal_stop (p : Direction) : isReversal p .stop = false := by cases p <;> rfl

theorem isReversal_iff (p d : Direction) :
    isReversal p d = true ↔ (d = .forward ∧ p = .backward ∨ d = .backward ∧ p = .forward) := by
  cases p <;> cases d <;> simp [isReversal]

theorem driveCmd_stop_idle {s : State} (h : s.dwellActive = false) :
    driveCmd .stop s = { s with curDir := .stop, prevDir := .stop, driveOutUs := s.cfg.stopPulse,
                                trace := s.trace ++ [.driveWrite s.cfg.stopPulse] } :=
  driveCmd_direct h (isReversal_stop _)

theorem dwellService_over {s : State} (h : s.dwellActive = true)
    (ho : dwellOver s.cfg s.nowUs s.dwellStartUs = true) :
    dwellService s = { s with prevDir := s.pendingDir, dwellActive := false,
                              driveOutUs := drivePulse s.cfg s.pendingDir,
                              trace := s.trace ++ [.driveWrite (drivePulse s.cfg s.pendingDir)] } := by
  simp [dwellService, h, ho, writeDrive, emit]

theorem dwellService_idle {s : State} (h : s.dwellActive = false) : dwellService s = s := by simp [dwellService, h]

theorem dwellService_running {s : State} (ho : dwellOver s.cfg s.nowUs s.dwellStartUs = false) :
    dwellService s = s := by simp [dwellService, ho]

theorem dwellOver_iff (g : Config) (t start : Us) : dwellOver g t start = true ↔
    g.reversalDwellMs * 1000 ≤ (((t.toNat + 4294967296 - start.toNat) % 4294967296 : Nat) : Int) := by
  simp only [dwellOver, dwellUs, usInt, elapsed_toNat, decide_eq_true_eq]

theorem blinkDue_iff (t last : Us) : blinkDue t last = true ↔
    200000 ≤ (t.toNat + 4294967296 - last.toNat) % 4294967296 := by
  simp only [blinkDue, blinkUs, usInt, elapsed_toNat, decide_eq_true_eq]
  omega

/-- STOPALL as one update: during a dwell the stop is deferred, otherwise it is written. -/
theorem stopAll_eq (s : State) : stopAll s =
    { s with cmdPending := false, curAngle := neutralAngle s.cfg, steerOutUs := neutralPulse s.cfg, curDir := .stop,
             indPos := false, indNeg := false,
             prevDir := if s.dwellActive then s.prevDir else .stop,
             pendingDir := if s.dwellActive then .stop else s.pendingDir,
             driveOutUs := if s.dwellActive then s.driveOutUs else s.cfg.stopPulse,
             trace := s.trace ++ .steerWrite (neutralPulse s.cfg) ::
               (if s.dwellActive then [] else [.driveWrite s.cfg.stopPulse]) } := by
  cases h : s.dwellActive
  · have h' : (steerCmd (mid s.cfg) s).dwellActive = false := by simp [h]
    simp only [stopAll]
    rw [driveCmd_stop_idle h']
    simp [steerCmd, writeSteer, emit, discardCommand, indicatorsOff, neutralAngle,
      neutralPulse]
    simp [h]
  · have h' : (steerCmd (mid s.cfg) s).dwellActive = true := by simp [h]
    simp only [stopAll]
    rw [driveCmd_dwell _ h']
    simp [steerCmd, writeSteer, emit, discardCommand, indicatorsOff, neutralAngle,
      neutralPulse]
    simp [h]

/-- UNDET.HOLD as one update. -/
theorem undetHold_eq (s : State) : undetHold s =
    { s with cmdPending := false, curAngle := neutralAngle s.cfg, steerOutUs := neutralPulse s.cfg, curDir := .stop,
             prevDir := if s.dwellActive then s.prevDir else .stop,
             pendingDir := if s.dwellActive then .stop else s.pendingDir,
             driveOutUs := if s.dwellActive then s.driveOutUs else s.cfg.stopPulse,
             trace := s.trace ++ .steerWrite (neutralPulse s.cfg) ::
               (if s.dwellActive then [] else [.driveWrite s.cfg.stopPulse]) } := by
  cases h : s.dwellActive
  · have h' : (steerCmd (mid s.cfg) s).dwellActive = false := by simp [h]
    simp only [undetHold]
    rw [driveCmd_stop_idle h']
    simp [steerCmd, writeSteer, emit, discardCommand, neutralAngle, neutralPulse]
    simp [h]
  · have h' : (steerCmd (mid s.cfg) s).dwellActive = true := by simp [h]
    simp only [undetHold]
    rw [driveCmd_dwell _ h']
    simp [steerCmd, writeSteer, emit, discardCommand, neutralAngle, neutralPulse]
    simp [h]

/-! ## The arbiter and the cycle -/

theorem arbEval_stale {s : State} (h : (s.ch.get .mode).fresh = false) : arbEval s = (false, s) := by
  simp [arbEval, h]

theorem arbEval_same {s : State} (h : (s.ch.get .mode).fresh = true)
    (hm : (classify (s.ch.get .mode).latestWidthUs).toMode = s.mode) : arbEval s = (false, (sample .mode s).2) := by
  simp [arbEval, h, sample, hm]

theorem arbEval_change {s : State} (h : (s.ch.get .mode).fresh = true)
    (hm : (classify (s.ch.get .mode).latestWidthUs).toMode ≠ s.mode) :
    arbEval s = (true, transition (classify (s.ch.get .mode).latestWidthUs) (sample .mode s).2) := by
  simp [arbEval, h, sample, hm]

@[simp] theorem transition_mode (m : ActiveMode) (s : State) : (transition m s).mode = m.toMode := rfl

/-- ARB.EVAL reports a change exactly when the mode changed. -/
theorem arbEval_fst_iff (s : State) : (arbEval s).1 = true ↔ (arbEval s).2.mode ≠ s.mode := by
  cases h : (s.ch.get .mode).fresh
  · simp [arbEval_stale h]
  · by_cases hm : (classify (s.ch.get .mode).latestWidthUs).toMode = s.mode
    · simp [arbEval_same h hm]
    · simp [arbEval_change h hm, hm]

theorem cycle_transition {s : State} (h : (arbEval s).1 = true) : cycle s = dwellService (arbEval s).2 := by
  simp [cycle, h]

theorem cycle_ordinary {s : State} (h : (arbEval s).1 = false) :
    cycle s = indicatorPhase (dwellService (handler (arbEval s).2)) := by simp [cycle, h]

/-! ## The step -/

/-- A step goes on exactly when the configuration is accepted and the next stimulus is an operation that goes on. -/
theorem step_next_iff (s t : State) : step s = .next t ↔
    s.cfg.Valid ∧ ∃ i, decodeStimulus (fetch s).1 = .ok i ∧ exec i (fetch s).2 = .next t := by
  unfold step Config.Valid
  split
  · rename_i e he
    simp [he]
  · rename_i he
    split <;> rename_i hd <;> simp [he, hd]

theorem fetch_nil {s : State} (h : s.agenda = []) :
    fetch s = ((Config.freeAct s.turn).stimulus, { s with turn := s.turn + 1 }) := by simp [fetch, h]

/-- Whatever an agent chooses to do is an operation. -/
theorem decodeStimulus_act (a : Act) : ∃ i, decodeStimulus a.stimulus = .ok i := by
  cases a with
  | pin c v => cases c <;> exact ⟨_, rfl⟩
  | reset => exact ⟨_, rfl⟩
  | tick d => exact ⟨_, rfl⟩
  | cycle => exact ⟨_, rfl⟩
  | byte b => exact ⟨_, rfl⟩

theorem fetch_cons {s : State} {x : Stimulus} {rest : List Stimulus} (h : s.agenda = x :: rest) :
    fetch s = (x, { s with agenda := rest }) := by simp [fetch, h]

/-- The stimulus only leaves the agenda, or uses up a free turn: the rest of the state stays. -/
theorem fetch_snd (s : State) : (fetch s).2 =
    { s with agenda := s.agenda.tail, turn := if s.agenda = [] then s.turn + 1 else s.turn } := by
  cases h : s.agenda <;> simp [fetch, h]

/-- RX.LF as one update. -/
theorem execRxLf_eq (s : State) : execRxLf s = .next (if s.len = 0 then s else
    clearLine (deliver (lineResult s.cfg (lineText s)) s)) := by
  unfold execRxLf
  split <;> rfl

/-- Everything a step can do when it goes on: one of the seven things an agent does, on the state with the stimulus
taken off the agenda. -/
theorem step_cases {s t : State} (h : step s = .next t) : s.cfg.Valid ∧
    (((fetch s).1 = .event .reset ∧ t = resetEvent (fetch s).2) ∨
     (∃ d, (fetch s).1 = .event (.tick d) ∧ t = advance d (fetch s).2) ∨
     (∃ code v c, (fetch s).1 = .event (.pin code v) ∧ channelOfCode code = some c ∧
       t = pinEvent c (levelOf v) (fetch s).2) ∨
     ((fetch s).1 = .event .cycle ∧ t = cycle (fetch s).2) ∨
     ((fetch s).1 = .byte chLF ∧ (s.len = 0 ∧ t = (fetch s).2 ∨
       s.len ≠ 0 ∧ t = clearLine (deliver (lineResult s.cfg (lineText s)) (fetch s).2))) ∨
     ((fetch s).1 = .byte chCR ∧ t = (fetch s).2) ∨
     (∃ b, (fetch s).1 = .byte b ∧ isDataByte b = true ∧ t = storeByte b (fetch s).2)) := by
  obtain ⟨hv, i, hi, he⟩ := (step_next_iff s t).1 h
  refine ⟨hv, ?_⟩
  have hs := fetch_snd s
  generalize (fetch s).2 = u at *
  generalize (fetch s).1 = x at *
  cases x with
  | event e =>
    cases e with
    | reset => cases hi; cases he; exact Or.inl ⟨rfl, rfl⟩
    | tick d => cases hi; cases he; exact Or.inr (Or.inl ⟨d, rfl, rfl⟩)
    | pin code v =>
      simp only [decodeStimulus, decodeEvent] at hi
      split at hi
      · rename_i c hc
        cases hi; cases he
        exact Or.inr (Or.inr (Or.inl ⟨code, v, c, rfl, hc, rfl⟩))
      · cases hi
    | cycle => cases hi; cases he; exact Or.inr (Or.inr (Or.inr (Or.inl ⟨rfl, rfl⟩)))
  | byte b =>
    simp only [decodeStimulus, decodeByte, Except.ok.injEq] at hi
    split at hi
    · rename_i hb
      subst hi hb
      simp only [exec, execRxLf_eq, Host.Outcome.next.injEq] at he
      subst he
      refine Or.inr (Or.inr (Or.inr (Or.inr (Or.inl ⟨rfl, ?_⟩))))
      subst hs
      by_cases hl : s.len = 0
      · exact Or.inl ⟨hl, by simp [hl]⟩
      · exact Or.inr ⟨hl, by simp [hl, lineText]⟩
    · rename_i hb
      split at hi
      · rename_i hb'
        subst hi hb'
        cases he
        exact Or.inr (Or.inr (Or.inr (Or.inr (Or.inr (Or.inl ⟨rfl, rfl⟩)))))
      · rename_i hb'
        subst hi
        cases he
        exact Or.inr (Or.inr (Or.inr (Or.inr (Or.inr (Or.inr ⟨b, rfl, by simp [isDataByte, hb, hb'], rfl⟩)))))

/-! ## Runs -/

theorem run_zero (M : Host.Core) (s : M.State) : M.run 0 s = .next s := by simp only [Host.Core.run]

theorem run_next {M : Host.Core} {k : Nat} {s t : M.State} (h : M.step s = .next t) :
    M.run (k + 1) s = M.run k t := by simp only [Host.Core.run, h]

/-- A run of the core that begins with a step that goes on. -/
theorem core_run_next {k : Nat} {s t : State} (h : step s = .next t) :
    Host.Core.run Sys2Proof.core (k + 1) s = Host.Core.run Sys2Proof.core k t := run_next h

/-- A sequence of operations whose first part goes on. -/
theorem execAll_append {l r : List Instr} {s t : State} (h : execAll l s = .next t) :
    execAll (l ++ r) s = execAll r t := by
  induction l generalizing s with
  | nil =>
    simp only [execAll, Host.Outcome.next.injEq] at h
    subst h
    rfl
  | cons i l ih =>
    simp only [List.cons_append, execAll] at h ⊢
    split at h
    · exact ih h
    · cases h
    · cases h

end Sys2Proof.Machine
end

