-- ==== Sys2Proof/Laws/PerInstr.lean ====
section
/-! SUPPORT. Statements for all operations, one lemma per constructor: decoding an operation's word gives it back. -/

/-- A well-formed operation is decoded from its own word. -/
def Sys2Proof.Laws.RoundTrip.Statement (i : Sys2Proof.Instr) : Prop :=
  i.wf = true → Sys2Proof.decode (Sys2Proof.encode i) = .ok i

namespace Sys2Proof.Laws.RoundTrip

theorem reset : Statement .reset := fun _ => rfl

theorem tick (d : Nat) : Statement (.tick d) := fun _ => rfl

theorem pin (c : Channel) (v : Bool) : Statement (.pin c v) := by
  intro _
  simp [encode, decode, decodeStimulus, decodeEvent]

theorem pinRise (c : Channel) : Statement (.pinRise c) := by
  intro _
  simp [encode, decode, decodeEdge, levelOf]

theorem pinFall (c : Channel) : Statement (.pinFall c) := by
  intro _
  simp [encode, decode, decodeEdge, levelOf]

theorem pinSame (c : Channel) (v : Bool) : Statement (.pinSame c v) := by
  intro _
  simp [encode, decode, decodeEdge]

theorem cycle : Statement .cycle := fun _ => rfl

theorem rxLf : Statement .rxLf := fun _ => rfl

theorem rxCr : Statement .rxCr := fun _ => rfl

theorem rxData (b : Byte) : Statement (.rxData b) := by
  intro h
  have hb := dataByte_ne h
  simp [encode, decode, decodeStimulus, decodeByte, hb]

theorem lineEmpty : Statement .lineEmpty := fun _ => by decide

theorem lineOversize (bytes : List Byte) : Statement (.lineOversize bytes) := by
  intro h
  simp only [Instr.wf, Bool.and_eq_true, decide_eq_true_eq, List.all_eq_true] at h
  exact decodeFrame_oversize h.1 h.2

theorem lineNoMark (s : List Byte) : Statement (.lineNoMark s) := by
  intro h
  simp only [Instr.wf, Bool.and_eq_true, Bool.or_eq_true, Option.isNone_iff_eq_none] at h
  simp only [encode, decode, decodeFrame_line h.1, decodeLine]
  rcases h.2 with h2 | h2 <;> simp only [h2]
  cases findE s <;> rfl

theorem lineBadInt (s : List Byte) : Statement (.lineBadInt s) := by
  intro h
  simp only [Instr.wf, Bool.and_eq_true] at h
  obtain ⟨⟨h1, h2⟩, h3⟩ := h
  obtain ⟨d, hd⟩ := Option.isSome_iff_exists.mp h2
  simp only [encode, decode, decodeFrame_line h1, decodeLine, hd]
  cases he : findE s with
  | none => simp [he] at h3
  | some e =>
    simp only [he, Option.isNone_iff_eq_none] at h3
    simp [h3]

theorem cmdF (v : Int) : Statement (.cmdF v) := by
  intro h
  rw [encode, decode_command v [chF] 26 (by omega) h (by decide) (by decide)]
  simp

theorem cmdB (v : Int) : Statement (.cmdB v) := by
  intro h
  rw [encode, decode_command v [chB] 26 (by omega) h (by decide) (by decide)]
  simp [chB, chF]

theorem cmdS (v : Int) : Statement (.cmdS v) := by
  intro h
  rw [encode, decode_command v [chS] 26 (by omega) h (by decide) (by decide)]
  simp [chS, chB, chF]

theorem cmdX (v : Int) (c : Option Byte) : Statement (.cmdX v c) := by
  intro h
  cases c with
  | none =>
    rw [encode, otherDirText, if_neg (by simp), decode_command v _ 27 (by omega) h (by decide) (by simp)]
    simp
  | some b =>
    simp only [Instr.wf, Bool.and_eq_true, isOtherDirByte, decide_eq_true_eq] at h
    obtain ⟨hv, ⟨⟨hb, hF⟩, hB⟩, hS⟩ := h
    have hdata : ∀ x ∈ (some b).toList, isDataByte x = true := by simpa using hb
    have hfin : (if (some b).toList.head? = some chF then Instr.cmdF v
        else if (some b).toList.head? = some chB then .cmdB v
        else if (some b).toList.head? = some chS then .cmdS v
        else .cmdX v (some b).toList.head?) = .cmdX v (some b) := by simp [hF, hB, hS]
    by_cases hE : some b = some chE ∧ lineMax < (renderInt v).length + 5
    · obtain ⟨hbE, hlen⟩ := hE
      obtain rfl : b = chE := by simpa using hbE
      have hr := renderInt_length_le v 27 (by omega) (by simpa using hv)
      have hn := natAbs_lt_of_intFits (k := 27) (by omega) (by simpa using hv)
      rw [encode, otherDirText, if_pos ⟨rfl, hlen⟩, decode, decodeFrame_line, decodeLine_swapped v hn]
      simp only [isFrameText, Bool.and_eq_true, decide_eq_true_eq, List.all_eq_true]
      refine ⟨⟨by simp, by simp [lineMax]; omega⟩, ?_⟩
      intro x hx
      simp only [List.mem_append, List.mem_cons, List.not_mem_nil, or_false] at hx
      rcases hx with ((rfl | rfl) | (rfl | rfl)) | hx
      · decide
      · decide
      · decide
      · decide
      · exact renderInt_data x hx
    · rw [encode, otherDirText, if_neg hE, decode, decode_commandText v _ _ _ hdata, hfin]
      · by_cases hbE : b = chE
        · exact natAbs_lt_of_intFits (k := 27) (by omega) (by simpa [hbE] using hv)
        · exact natAbs_lt_of_intFits (k := 26) (by omega) (by simpa [hbE] using hv)
      · by_cases hbE : b = chE
        · subst hbE
          simp at hE ⊢
          omega
        · have := renderInt_length_le v 26 (by omega) (by simpa [hbE] using hv)
          simp [lineMax]
          omega

theorem sample (c : Channel) : Statement (.sample c) := by
  intro _
  simp [encode, decode, decodePhase]

theorem arbEval : Statement .arbEval := fun _ => rfl

theorem undetHold : Statement .undetHold := fun _ => rfl

theorem txMode (m : ActiveMode) : Statement (.txMode m) := by
  intro _
  simp [encode, decode, decodePhase]

theorem steerCmd (angle : Int) : Statement (.steerCmd angle) := fun _ => rfl

theorem driveCmd (d : Direction) : Statement (.driveCmd d) := by
  intro _
  simp [encode, decode, decodePhase]

theorem dwellService : Statement .dwellService := fun _ => rfl

theorem stopAll : Statement .stopAll := fun _ => rfl

theorem autoApply : Statement .autoApply := fun _ => rfl

theorem manualSteer : Statement .manualSteer := fun _ => rfl

theorem manualDrive : Statement .manualDrive := fun _ => rfl

theorem indUpdate : Statement .indUpdate := fun _ => rfl

end Sys2Proof.Laws.RoundTrip
end

