-- ==== Sys2Proof/Tests/Slice0.lean ====
section
/-! SUPPORT. Small tests, each from a rule or a vector of spec/95 (named in its comment), and a witness for the
hypotheses of each statement. -/

namespace Sys2Proof.Tests

open Sys2Proof Sys2Proof.Machine

/-! ## Helpers -/

/-- CFG-A after reset, pins low: the start state of the vectors of spec/95. -/
def base : State := State.resetOf Config.cfgA ⟨false, false, false⟩

/-- CFG-B after reset, pins low. -/
def baseB : State := State.resetOf Config.cfgB ⟨false, false, false⟩

/-- An outcome is a next state with the property `f`. -/
def goesTo (o : Host.Outcome State Fault Refusal) (f : State → Bool) : Bool :=
  match o with
  | .next t => f t
  | .fault _ => false
  | .refused _ => false

/-- An outcome is the refusal `r`. -/
def refuses (o : Host.Outcome State Fault Refusal) (r : Refusal) : Bool :=
  match o with
  | .next _ => false
  | .fault _ => false
  | .refused r' => r' = r

/-- A channel that has captured the width `w` on a low pin, fresh. -/
def captured (w : Us) : PulseChannel := ⟨w, 0, true, true, false⟩

/-- The line buffer filled with `text`. -/
def lineOf (text : List Byte) : State := loadLine text base

/-- What a decoder answers, when it is an operation. -/
def decodesTo (w : OpWord) (i : Instr) : Bool := decode w = .ok i

/-- `E:75 D:F` (spec/95 L1-3). -/
def text75F : List Byte := [0x45, 0x3A, 0x37, 0x35, 0x20, 0x44, 0x3A, 0x46]

/-- `garbage` (spec/95 L1-3). -/
def textGarbage : List Byte := [0x67, 0x61, 0x72, 0x62, 0x61, 0x67, 0x65]

/-- `E:D:F` (spec/95 V-F18). -/
def textBadInt : List Byte := [0x45, 0x3A, 0x44, 0x3A, 0x46]

/-- A dwell from Forward to Backward begun at time 0 (R173). -/
def dwelling : State := { base with prevDir := .forward, curDir := .backward, pendingDir := .backward, dwellActive := true }

/-! ## Decoding: a word written out from the spec for every operation -/

-- R71, R83: the names and fields of the EVENT operations; the channel codes of R10.
theorem test_decode_events :
    decodesTo (.stimulus (.event .reset)) .reset ∧
    decodesTo (.stimulus (.event (.tick 1500))) (.tick 1500) ∧
    decodesTo (.stimulus (.event (.pin 0b10 1))) (.pin .mode true) ∧
    decodesTo (.stimulus (.event (.pin 0b00 0))) (.pin .steer false) ∧
    decodesTo (.stimulus (.event .cycle)) .cycle := by decide

-- R71: a high level on a low line is PIN.RISE, a low level on a high line PIN.FALL, an equal level PIN.SAME.
theorem test_decode_edges :
    decodesTo (.edge 0b01 1 false) (.pinRise .throt) ∧ decodesTo (.edge 0b01 0 true) (.pinFall .throt) ∧
    decodesTo (.edge 0b10 0 false) (.pinSame .mode false) ∧ decodesTo (.edge 0b10 1 true) (.pinSame .mode true) := by
  decide

-- R72: 0x0A, 0x0D and the values beside them.
theorem test_decode_bytes :
    decodesTo (.stimulus (.byte 0b00001010)) .rxLf ∧ decodesTo (.stimulus (.byte 0b00001101)) .rxCr ∧
    decodesTo (.stimulus (.byte 0x0B)) (.rxData 0x0B) ∧ decodesTo (.stimulus (.byte 0x00)) (.rxData 0x00) ∧
    decodesTo (.stimulus (.byte 0xFF)) (.rxData 0xFF) := by decide

-- spec/95 V-F1 to V-F4: the four command forms.
theorem test_decode_commands :
    decodesTo (.frame [0x45, 0x3A, 0x37, 0x35, 0x20, 0x44, 0x3A, 0x46, 0x0A]) (.cmdF 75) ∧
    decodesTo (.frame [0x45, 0x3A, 0x39, 0x30, 0x20, 0x44, 0x3A, 0x42, 0x0A]) (.cmdB 90) ∧
    decodesTo (.frame [0x45, 0x3A, 0x30, 0x20, 0x44, 0x3A, 0x53, 0x0A]) (.cmdS 0) ∧
    decodesTo (.frame [0x45, 0x3A, 0x39, 0x39, 0x39, 0x20, 0x44, 0x3A, 0x5A, 0x0A]) (.cmdX 999 (some 0x5A)) ∧
    decodesTo (.frame [0x45, 0x3A, 0x37, 0x35, 0x20, 0x44, 0x3A, 0x0A]) (.cmdX 75 none) := by decide

-- R78, spec/95 L1-3, V-F18, V-F19, V-B10: an empty line, a bad integer, no marker, 32 bytes with no terminator.
theorem test_decode_bad_lines :
    decodesTo (.frame [0x0A]) .lineEmpty ∧ decodesTo (.frame [0x0D, 0x0A]) .lineEmpty ∧
    decodesTo (.frame (textGarbage ++ [0x0A])) (.lineNoMark textGarbage) ∧
    decodesTo (.frame (textBadInt ++ [0x0A])) (.lineBadInt textBadInt) ∧
    decodesTo (.frame [0x45, 0x3A, 0x2D, 0x20, 0x44, 0x3A, 0x46, 0x0A])
      (.lineBadInt [0x45, 0x3A, 0x2D, 0x20, 0x44, 0x3A, 0x46]) ∧
    decodesTo (.frame (List.replicate 32 0x78)) (.lineOversize (List.replicate 32 0x78)) := by decide

-- R83: the names and operands of the PHASE operations; the codes of R10.
theorem test_decode_phases :
    decodesTo (.phase (.sample 0b10)) (.sample .mode) ∧ decodesTo (.phase .arbEval) .arbEval ∧
    decodesTo (.phase .undetHold) .undetHold ∧ decodesTo (.phase (.txMode 0b01)) (.txMode .manual) ∧
    decodesTo (.phase (.txMode 0b10)) (.txMode .auto) ∧ decodesTo (.phase (.steerCmd (-40))) (.steerCmd (-40)) ∧
    decodesTo (.phase (.driveCmd 0b01)) (.driveCmd .forward) ∧ decodesTo (.phase .dwellService) .dwellService ∧
    decodesTo (.phase .stopAll) .stopAll ∧ decodesTo (.phase .autoApply) .autoApply ∧
    decodesTo (.phase .manualSteer) .manualSteer ∧ decodesTo (.phase .manualDrive) .manualDrive ∧
    decodesTo (.phase .indUpdate) .indUpdate := by decide

-- spec/95 V-F6, V-F7, V-F15, V-F28, V-F29: signs, a non-digit, marker order, leftmost markers; R134 `D:E:5`.
theorem test_decode_lenient :
    decodesTo (.frame [0x45, 0x3A, 0x2D, 0x35, 0x20, 0x44, 0x3A, 0x42, 0x0A]) (.cmdB (-5)) ∧
    decodesTo (.frame [0x45, 0x3A, 0x2B, 0x33, 0x30, 0x20, 0x44, 0x3A, 0x53, 0x0A]) (.cmdS 30) ∧
    decodesTo (.frame [0x45, 0x3A, 0x31, 0x32, 0x61, 0x62, 0x63, 0x20, 0x44, 0x3A, 0x42, 0x0A]) (.cmdB 12) ∧
    decodesTo (.frame [0x44, 0x3A, 0x46, 0x20, 0x45, 0x3A, 0x37, 0x35, 0x0A]) (.cmdF 75) ∧
    decodesTo (.frame [0x45, 0x3A, 0x31, 0x20, 0x45, 0x3A, 0x32, 0x20, 0x44, 0x3A, 0x46, 0x20, 0x44, 0x3A, 0x42, 0x0A])
      (.cmdF 1) ∧
    decodesTo (.frame [0x44, 0x3A, 0x45, 0x3A, 0x35, 0x0A]) (.cmdX 5 (some 0x45)) := by decide

-- Words that are no operation: code 3 (R71), a mode that is never announced (R156), broken frames (R74).
theorem test_decode_refusals :
    decode (.stimulus (.event (.pin 3 1))) = .error .notAChannel ∧ decode (.edge 3 0 false) = .error .notAChannel ∧
    decode (.phase (.sample 3)) = .error .notAChannel ∧ decode (.phase (.txMode 0)) = .error .notAnAnnouncedMode ∧
    decode (.phase (.driveCmd 3)) = .error .notADirection ∧
    decode (.frame text75F) = .error .frameUnterminated ∧
    decode (.frame (List.replicate 32 0x78 ++ [0x0A])) = .error .frameTooLong ∧
    decode (.frame [0x0A, 0x78]) = .error .bytesAfterTerminator := by decide

-- spec/opcode_table.json: the two rows with a binary word, and a frame with its first byte lowest.
theorem test_table_words :
    decodeTableWord 8 0x0A = some .rxLf ∧ decodeTableWord 8 0x0D = some .rxCr ∧
    decodeTableWord 8 0x78 = some (.rxData 0x78) ∧
    decodeTableWord 72 0x0A463A442035373A45 = some (.cmdF 75) := by decide

-- The word at the head of the agenda is run by the very next step: RX.LF after reset; a frame delivers its command.
theorem test_fetch_word :
    goesTo (step (State.reset.withFetchWord 8 0x0A)) (fun t => t = State.reset) = true ∧
    goesTo (step (State.reset.withFetchWord 72 0x0A463A442035373A45))
      (fun t => t.trace = [.lineDecoded 75 .forward true] && t.len = 0 && t.agenda = []) = true := by decide

/-! ## Well-formedness: an ill-formed term for each check -/

-- R72: the bytes of class RX.DATA.
theorem test_wf_rxData : (Instr.rxData 0x0A).wf = false ∧ (Instr.rxData 0x0D).wf = false ∧ (Instr.rxData 0x0B).wf = true := by
  decide

-- R123: exactly 32 data bytes.
theorem test_wf_lineOversize :
    (Instr.lineOversize (List.replicate 31 0x78)).wf = false ∧
    (Instr.lineOversize (0x0A :: List.replicate 31 0x78)).wf = false ∧
    (Instr.lineOversize (List.replicate 32 0x78)).wf = true := by decide

-- R74, R127: 1 to 31 data bytes, and a marker lacks.
theorem test_wf_lineNoMark :
    (Instr.lineNoMark []).wf = false ∧ (Instr.lineNoMark (List.replicate 32 0x78)).wf = false ∧
    (Instr.lineNoMark [0x78, 0x0D]).wf = false ∧ (Instr.lineNoMark text75F).wf = false ∧
    (Instr.lineNoMark textGarbage).wf = true := by decide

-- R126: both markers and no integer.
theorem test_wf_lineBadInt :
    (Instr.lineBadInt textGarbage).wf = false ∧ (Instr.lineBadInt text75F).wf = false ∧
    (Instr.lineBadInt [0x45, 0x3A]).wf = false ∧ (Instr.lineBadInt [0x44, 0x3A]).wf = false ∧
    (Instr.lineBadInt (textBadInt ++ List.replicate 27 0x78)).wf = false ∧ (Instr.lineBadInt textBadInt).wf = true := by
  decide

-- R74, R76: an integer that no line of 31 bytes can hold, beside the largest that one can.
theorem test_wf_command_integers :
    (Instr.cmdF (10 ^ 26)).wf = false ∧ (Instr.cmdF (10 ^ 26 - 1)).wf = true ∧
    (Instr.cmdB (-(10 ^ 25))).wf = false ∧ (Instr.cmdB (1 - 10 ^ 25)).wf = true ∧
    (Instr.cmdS (10 ^ 26)).wf = false ∧ (Instr.cmdX (10 ^ 27) none).wf = false ∧
    (Instr.cmdX (10 ^ 27 - 1) none).wf = true ∧ (Instr.cmdX (10 ^ 26) (some 0x5A)).wf = false ∧
    (Instr.cmdX (10 ^ 26) (some 0x45)).wf = true ∧ (Instr.cmdX (10 ^ 27) (some 0x45)).wf = false := by decide

-- R133: the byte after `D:` is a data byte other than F, B and S.
theorem test_wf_cmdX_byte :
    (Instr.cmdX 5 (some 0x46)).wf = false ∧ (Instr.cmdX 5 (some 0x42)).wf = false ∧
    (Instr.cmdX 5 (some 0x53)).wf = false ∧ (Instr.cmdX 5 (some 0x0A)).wf = false ∧
    (Instr.cmdX 5 (some 0x0D)).wf = false ∧ (Instr.cmdX 5 (some 0x66)).wf = true := by decide

/-! ## The meanings -/

-- spec/95 V-R1: a running dwell and a high mode pin, then RESET.
theorem test_reset : goesTo (exec .reset { dwelling with pwmIn := ⟨false, false, true⟩, nowUs := 9, mode := .auto })
    (fun t => !t.dwellActive && t.ch.mode.line && !t.ch.steer.line && t.nowUs = 0 && t.mode = .undetermined) = true := by
  decide

-- spec/95 section 2, CFG-B: the reset angle and pulse with an offset.
theorem test_reset_cfgB : goesTo (exec .reset { baseB with curAngle := 0, steerOutUs := 0 })
    (fun t => t.curAngle = 95 && t.steerOutUs = 1450) = true := by decide

-- spec/95 V-T2: the counter wraps.
theorem test_tick_wraps : goesTo (exec (.tick 1) { base with nowUs := 4294967295 }) (fun t => t.nowUs = 0) = true := by
  decide

-- spec/95 V-C1: a rising edge at 1000 stores only the time.
theorem test_pin_rise : goesTo (exec (.pin .steer true) { base with nowUs := 1000 })
    (fun t => t.ch.steer = ⟨1500, 1000, false, true, true⟩ && t.ch.throt = base.ch.throt) = true := by decide

-- spec/95 V-C6: the first falling edge of a pin that was high at reset.
theorem test_pin_orphan_fall :
    goesTo (exec (.pin .steer false) { State.resetOf Config.cfgA ⟨true, false, false⟩ with nowUs := 500 })
      (fun t => t.ch.steer = ⟨1500, 0, false, false, false⟩) = true := by decide

-- R101.
theorem test_pinRise : goesTo (exec (.pinRise .throt) { base with nowUs := 600 })
    (fun t => t.ch.throt = ⟨1500, 600, false, true, false⟩) = true := by decide

-- spec/95 V-C8: the counter has wrapped between the edges.
theorem test_pinFall_wraps :
    goesTo (exec (.pinFall .steer)
        { base with nowUs := 1024, ch := base.ch.set .steer ⟨1500, 4294967040, false, true, false⟩ })
      (fun t => t.ch.steer = ⟨1280, 4294967040, true, true, false⟩) = true := by decide

-- R103.
theorem test_pinFall_unarmed : goesTo (exec (.pinFall .mode) { base with nowUs := 77 })
    (fun t => t.ch.mode = base.ch.mode) = true := by decide

-- spec/95 V-C5.
theorem test_pinSame : goesTo (exec (.pinSame .steer false) base) (fun t => t = base) = true := by decide

-- spec/95 V-B6 and V-B7: the line feed delivers the line and empties the buffer.
theorem test_rxLf : goesTo (exec .rxLf (lineOf text75F))
    (fun t => t.trace = [.lineDecoded 75 .forward true] && t.cmdPending && t.len = 0) = true := by decide

-- spec/95 V-B1.
theorem test_rxLf_empty : goesTo (exec .rxLf base) (fun t => t = base) = true := by decide

-- spec/95 V-B5: a carriage return in mid-line.
theorem test_rxCr : goesTo (exec .rxCr (lineOf [0x45, 0x3A])) (fun t => t = lineOf [0x45, 0x3A]) = true := by decide

-- R123.
theorem test_rxData : goesTo (exec (.rxData 0x3A) (lineOf [0x45])) (fun t => lineText t = [0x45, 0x3A]) = true := by
  decide

-- spec/95 V-B8 and V-B10: the 32nd byte resets the buffer and is itself discarded.
theorem test_rxData_full : goesTo (exec (.rxData 0x78) { base with len := 31 })
    (fun t => t.len = 0 && t.trace = [] && !t.cmdPending) = true := by decide

-- spec/95 L1-3.
theorem test_lineEmpty : goesTo (exec .lineEmpty base) (fun t => t = base) = true := by decide

-- spec/95 V-B10.
theorem test_lineOversize : goesTo (exec (.lineOversize (List.replicate 32 0x78)) { base with len := 31 })
    (fun t => t.len = 0 && t.trace = []) = true := by decide

-- spec/95 V-F24.
theorem test_lineNoMark : goesTo (exec (.lineNoMark textGarbage) base)
    (fun t => t.trace = [.lineDecoded 90 .stop false] && t.cmdPending) = true := by decide

-- spec/95 V-F18: the F is not looked at.
theorem test_lineBadInt : goesTo (exec (.lineBadInt textBadInt) { base with cmdDir := .forward, cmdValid := true })
    (fun t => t.cmdAngle = 90 && t.cmdDir = .stop && !t.cmdValid) = true := by decide

-- spec/95 V-F11 and V-F12, CFG-A and CFG-B.
theorem test_cmdF : goesTo (exec (.cmdF 181) base) (fun t => t.trace = [.lineDecoded 180 .forward true]) = true ∧
    goesTo (exec (.cmdF 49) baseB) (fun t => t.trace = [.lineDecoded 50 .forward true]) = true := by decide

-- spec/95 V-F6.
theorem test_cmdB : goesTo (exec (.cmdB (-5)) base) (fun t => t.trace = [.lineDecoded 0 .backward true]) = true := by
  decide

-- spec/95 V-F3.
theorem test_cmdS : goesTo (exec (.cmdS 0) base) (fun t => t.trace = [.lineDecoded 0 .stop true]) = true := by decide

-- spec/95 V-F4, CFG-B.
theorem test_cmdX : goesTo (exec (.cmdX 999 (some 0x5A)) baseB)
    (fun t => t.trace = [.lineDecoded 130 .stop true] && t.cmdValid) = true := by decide

-- spec/95 V-C12.
theorem test_sample : goesTo (exec (.sample .steer) { base with ch := base.ch.set .steer ⟨1500, 1000, true, true, false⟩ })
    (fun t => t.ch.steer = ⟨1500, 1000, false, true, false⟩) = true := by decide

-- spec/95 V-A2.
theorem test_arbEval_change : goesTo (exec .arbEval { base with ch := base.ch.set .mode (captured 1800) })
    (fun t => t.mode = .manual &&
      t.trace = [.steerWrite 1500, .driveWrite 1500,
        .txLine [0x4D, 0x4F, 0x44, 0x45, 0x3A, 0x4D, 0x41, 0x4E, 0x55, 0x41, 0x4C]]) = true := by decide

-- spec/95 V-A4: the threshold value is Auto.
theorem test_arbEval_threshold :
    goesTo (exec .arbEval { base with mode := .auto, ch := base.ch.set .mode (captured 1500) })
      (fun t => t.mode = .auto && t.trace = [] && !t.ch.mode.fresh) = true := by decide

-- spec/95 V-A8.
theorem test_undetHold : goesTo (exec .undetHold { base with cmdPending := true })
    (fun t => t.trace = [.steerWrite 1500, .driveWrite 1500] && !t.cmdPending) = true := by decide

-- spec/95 section 3.7: the bytes of the announcement.
theorem test_txMode : goesTo (exec (.txMode .auto) base)
    (fun t => t.txData = [0x4D, 0x4F, 0x44, 0x45, 0x3A, 0x41, 0x55, 0x54, 0x4F, 0x0A]) = true := by decide

-- spec/95 S1: angle 75 gives 1567 in CFG-A.
theorem test_steerCmd : goesTo (exec (.steerCmd 75) base)
    (fun t => t.curAngle = 75 && t.trace = [.steerWrite 1567]) = true := by decide

-- spec/95 section 2, CFG-B: the offset is added before the clamp.
theorem test_steerCmd_offset : goesTo (exec (.steerCmd 90) baseB)
    (fun t => t.curAngle = 95 && t.trace = [.steerWrite 1450]) = true := by decide

-- spec/95 S2, step 3: a reversal writes the Stop pulse and begins the dwell.
theorem test_driveCmd_reversal : goesTo (exec (.driveCmd .backward) { base with prevDir := .forward, nowUs := 10000 })
    (fun t => t.trace = [.driveWrite 1500] && t.dwellActive && t.dwellStartUs = 10000 && t.prevDir = .forward &&
      t.pendingDir = .backward) = true := by decide

-- R173, branch (a): a command during the dwell only replaces the pending direction.
theorem test_driveCmd_deferred : goesTo (exec (.driveCmd .stop) dwelling)
    (fun t => t.trace = [] && t.pendingDir = .stop && t.dwellActive) = true := by decide

-- spec/95 S2: 199999 microseconds are not enough, 200000 are.
theorem test_dwellService :
    goesTo (exec .dwellService { dwelling with nowUs := 199999 }) (fun t => t.trace = [] && t.dwellActive) = true ∧
    goesTo (exec .dwellService { dwelling with nowUs := 200000 })
      (fun t => t.trace = [.driveWrite 1400] && !t.dwellActive && t.prevDir = .backward) = true := by decide

-- spec/95 V-A10: STOPALL with a pending command and the drive running forward.
theorem test_stopAll : goesTo (exec .stopAll { base with driveOutUs := 1600, prevDir := .forward, cmdPending := true })
    (fun t => t.trace = [.steerWrite 1500, .driveWrite 1500] && !t.cmdPending && t.prevDir = .stop) = true := by decide

-- R173, R176: STOPALL during a dwell defers the stop.
theorem test_stopAll_dwell : goesTo (exec .stopAll dwelling)
    (fun t => t.trace = [.steerWrite 1500] && t.dwellActive && t.pendingDir = .stop) = true := by decide

-- spec/95 S1, step 12.
theorem test_autoApply : goesTo (exec .autoApply { base with cmdAngle := 75, cmdDir := .forward, cmdPending := true })
    (fun t => t.trace = [.steerWrite 1567, .driveWrite 1600] && !t.cmdPending && t.prevDir = .forward) = true := by decide

-- spec/95 V-Y3.
theorem test_autoApply_none : goesTo (exec .autoApply base) (fun t => t = base) = true := by decide

-- R177: one above the upper limit.
theorem test_manualSteer : goesTo (exec .manualSteer { base with ch := base.ch.set .steer (captured 2001) })
    (fun t => t.trace = [.steerWrite 2000] && !t.ch.steer.fresh) = true := by decide

-- R178: 1499 and 1497 with divisor 2 are rounded toward zero.
theorem test_manualDrive :
    goesTo (exec .manualDrive { base with ch := base.ch.set .throt (captured 1499) })
      (fun t => t.trace = [.driveWrite 1500]) = true ∧
    goesTo (exec .manualDrive { base with ch := base.ch.set .throt (captured 1497) })
      (fun t => t.trace = [.driveWrite 1499]) = true := by decide

-- R178, spec/95 S7: no sample while the dwell runs.
theorem test_manualDrive_dwell : goesTo (exec .manualDrive { dwelling with ch := base.ch.set .throt (captured 1600) })
    (fun t => t.trace = [] && t.ch.throt.fresh) = true := by decide

-- spec/95 section 3.8, rows 200000 and 450000.
theorem test_indUpdate :
    goesTo (exec .indUpdate { base with nowUs := 200000, ch := base.ch.set .steer (captured 1700) })
      (fun t => t.blinkState && t.blinkLastUs = 200000 && t.indPos && !t.indNeg) = true ∧
    goesTo (exec .indUpdate { base with nowUs := 450000, indPos := true, ch := base.ch.set .steer (captured 1600) })
      (fun t => !t.blinkState && t.blinkLastUs = 0 && !t.indPos && !t.indNeg) = true := by decide

-- spec/95 V-Y1: a transition cycle runs no handler; steering and throttle stay fresh.
theorem test_cycle_transition :
    goesTo (exec .cycle { base with mode := .manual, ch := ⟨captured 1700, captured 1800, captured 1200⟩ })
      (fun t => t.mode = .auto && t.ch.steer.fresh && t.ch.throt.fresh && !t.ch.mode.fresh &&
        t.trace = [.steerWrite 1500, .driveWrite 1500,
          .txLine [0x4D, 0x4F, 0x44, 0x45, 0x3A, 0x41, 0x55, 0x54, 0x4F]]) = true := by decide

-- spec/95 V-Y2.
theorem test_cycle_manual_discards : goesTo (exec .cycle { base with mode := .manual, cmdPending := true })
    (fun t => t.trace = [] && !t.cmdPending) = true := by decide

-- R230, 93 U2, U5, U6: what a step refuses.
theorem test_step_refusals :
    refuses (step { base with agenda := [.event (.pin 3 0)] }) (.badStimulus .notAChannel) = true ∧
    refuses (step { base with cfg := { Config.cfgA with manualDwell := true } }) (.badConfig .manualDwellUnsupported) = true ∧
    refuses (step { base with cfg := { Config.cfgA with domainMax := 0 } }) (.badConfig .domainOrder) = true := by decide

-- spec/95 V-A8: a first step from reset that is a CYCLE.
theorem test_step_cycle : goesTo (step { State.reset with agenda := [.event .cycle] })
    (fun t => t.trace = [.steerWrite 1500, .driveWrite 1500] && t.mode = .undetermined) = true := by decide

/-! ## Witnesses: concrete states and operands that meet the hypotheses of the statements -/

/-- CFG-A after reset, with a CYCLE next. -/
def idle : State := { base with agenda := [.event .cycle] }

/-- A state in which a pulse of width `w` is fresh on the mode channel, with a CYCLE next. -/
def modeFresh (w : Us) : State := { idle with ch := base.ch.set .mode (captured w) }

/-- A pending command in Undetermined mode, with a CYCLE next. -/
def pending : State := { idle with cmdPending := true }

/-- A dwell in Auto mode. -/
def dwellingAuto : State := { dwelling with mode := .auto }

/-- States of the invariant: a fresh mode width, a pending command, a running dwell. -/
theorem inv_examples : ∀ s ∈ [modeFresh 1200, pending, dwellingAuto], Inv s := by
  intro s hs
  simp only [List.mem_cons, List.not_mem_nil, or_false] at hs
  rcases hs with rfl | rfl | rfl <;> exact {
    config := by decide
    lines := by intro c; cases c <;> decide
    unarmed := by intro c; cases c <;> decide
    text := by decide
    command := ⟨by decide, by decide⟩
    fallbackCommand := by decide
    angle := ⟨by decide, by decide⟩
    steering := Or.inl ⟨by decide, by decide⟩
    drive := Or.inl ⟨.stop, by decide⟩
    dwellHoldsStop := by decide
    dwellPending := by decide
    dwellPrevious := by decide
    noDwellPrevious := by decide
    indicatorMode := by decide
    oneIndicator := by decide
    indicatorPhase := by decide
    undetermined := by decide
    manual := by decide }

theorem inv_modeFresh : Inv (modeFresh 1200) := inv_examples _ (by simp)

theorem inv_pending : Inv pending := inv_examples _ (by simp)

theorem inv_dwellingAuto : Inv dwellingAuto := inv_examples _ (by simp)

/-- A state with two letters in the line buffer and one more entry on the agenda. -/
def withAgenda (x : Stimulus) : State := { lineOf [0x45, 0x3A] with agenda := [x] }

-- The largest integers of each form, and the operands that the spec restricts.
theorem witness_DecodeOfEncodeIsTheOperation :
    (Instr.cmdF (10 ^ 26 - 1)).wf = true ∧ (Instr.cmdX (1 - 10 ^ 26) (some 0x45)).wf = true ∧
    (Instr.lineOversize (List.replicate 32 0)).wf = true ∧ (Instr.lineBadInt textBadInt).wf = true ∧
    (Instr.lineNoMark (List.replicate 31 0xFF)).wf = true ∧ (Instr.rxData 0x0B).wf = true := by decide

theorem witness_DecodedOperationsAreWellFormed :
    decode (.frame ([0x45, 0x3A] ++ List.replicate 26 0x39 ++ [0x44, 0x3A, 0x46, 0x0A])) = .ok (.cmdF (10 ^ 26 - 1)) ∧
    decode (.phase (.driveCmd 2)) = .ok (.driveCmd .backward) ∧ decode (.edge 0 1 false) = .ok (.pinRise .steer) := by
  decide

theorem witness_MarkerIsTheLeftmostOccurrence :
    find 0x45 0x3A [0x45, 0x45, 0x3A, 0x45, 0x3A] = some 1 ∧
    ([0x45, 0x45, 0x3A, 0x45, 0x3A] : List Byte)[1]? = some 0x45 ∧
    ([0x45, 0x45, 0x3A, 0x45, 0x3A] : List Byte)[1 + 1]? = some 0x3A := by decide

-- Both clauses, with an empty rest too.
theorem witness_IntegerFieldIsExactDecimal :
    ([0x30, 0x39] : List Byte) ≠ [] ∧ (∀ b ∈ ([0x30, 0x39] : List Byte), 0x30 ≤ b.toNat ∧ b.toNat ≤ 0x39) ∧
    NoDigitAtHead [] ∧ NoDigitAtHead [0x2F] ∧ NoDigitAtHead [0x3A] ∧
    ([0x20] : List Byte).head? ≠ some 0x2B ∧ ([0x20] : List Byte).head? ≠ some 0x2D := by
  refine ⟨by decide, by decide, ?_, ?_, ?_, by decide, by decide⟩ <;> intro b h <;> cases h <;> decide

theorem witness_StepRunsTheDecodedOperation :
    base.cfg.Valid ∧ (withAgenda (.byte 0x0A)).agenda = [.byte 0x0A] ∧ decode (.stimulus (.byte 0x0A)) = .ok .rxLf ∧
    base.agenda = [] := by decide

-- One configuration for each refusal, and a PIN event for channel 3.
theorem witness_StepGoesOnUnlessTheSpecRefuses :
    configProblem { Config.cfgA with outputMax := 1100 } = some .outputOrder ∧
    configProblem { Config.cfgA with manualDivisor := 0 } = some .divisorNotPositive ∧
    configProblem { Config.cfgA with reversalDwellMs := 2147484 } = some .dwellOutOfRange ∧
    configProblem { Config.cfgA with stopPulse := 4294967296 } = some .pulseOutOfRange ∧
    (withAgenda (.event (.pin 3 1))).cfg.Valid ∧
    (withAgenda (.event (.pin 3 1))).agenda = .event (.pin 3 1) :: [] ∧
    base.agenda ≠ [.event (.pin 3 1)] := by decide

-- The ends of the ranges of R7.
theorem witness_AcceptedConfigurationsMeetTheConstraints :
    Config.Valid { Config.cfgA with
      domainMax := 1, outputMin := 0, outputMax := 4294967295, manualDivisor := 1, reversalDwellMs := 2147483 } ∧
    Config.Valid { Config.cfgB with reversalDwellMs := 0, stopPulse := 0, forwardPulse := 4294967295 } := by decide

theorem witness_ResetGivesTheTableValues : dwelling.cfg.Valid ∧ baseB.cfg.Valid := by decide

theorem witness_TickAloneAdvancesTime :
    ∃ t, exec (.tick 4294967297) base = .next t ∧ t.nowUs ≠ base.nowUs := ⟨_, rfl, by decide⟩

-- Both orders of the two times, and an unarmed channel.
theorem witness_FallingEdgeMeasuresTheWidth :
    ((modeFresh 1200).ch.get .mode).armed = true ∧
    (((modeFresh 1200).ch.set .mode ⟨1500, 4294967295, false, true, false⟩).get .mode).armed = true ∧
    ¬ ((4294967295 : Us).toNat ≤ base.nowUs.toNat) ∧ (base.ch.get .throt).armed = false := by decide

theorem witness_EdgesOfDifferentChannelsCommute : Channel.steer ≠ .throt := by decide

theorem witness_HighPulseIsCapturedAsItsLength : (base.ch.get .steer).line = false := by decide

theorem witness_OperationsWithoutEffectChangeNothing : base.len.val = 0 := by decide

-- The last byte that is stored, and the byte that is dropped with the line.
theorem witness_DataByteIsStoredOrEmptiesTheBuffer :
    ({ base with len := 30 } : State).len.val < 31 ∧ ({ base with len := 31 } : State).len.val = 31 := by decide

theorem witness_OversizeDropsTheLine : ({ base with len := 31 } : State).len.val = 31 := by decide

theorem witness_LongRunKeepsItsTail : base.len.val = 0 := by decide

theorem witness_LineFeedPerformsTheFrameOperation :
    0 < (lineOf text75F).len.val ∧ 0 < (lineOf [0x78]).len.val ∧ 0 < ({ base with len := 31 } : State).len.val := by
  decide

-- A command with F, with B and with neither; a line without `E:`, without `D:`, and without an integer.
theorem witness_CompletedLineDeliversItsCommand :
    (lineOf text75F).cfg.Valid ∧ 0 < (lineOf text75F).len.val ∧ findE (lineText (lineOf text75F)) = some 0 ∧
    findD (lineText (lineOf text75F)) = some 5 ∧ parseInt ((lineText (lineOf text75F)).drop (0 + 2)) = some 75 ∧
    (lineText (lineOf text75F))[5 + 2]? = some 0x46 ∧
    findD (lineText (lineOf [0x45, 0x3A, 0x35, 0x44, 0x3A, 0x42])) = some 3 ∧
    (lineText (lineOf [0x45, 0x3A, 0x35, 0x44, 0x3A, 0x42]))[3 + 2]? = some 0x42 ∧
    findD (lineText (lineOf [0x45, 0x3A, 0x35, 0x44, 0x3A])) = some 3 ∧
    (lineText (lineOf [0x45, 0x3A, 0x35, 0x44, 0x3A]))[3 + 2]? = none ∧
    findE (lineText (lineOf [0x44, 0x3A])) = none ∧ findD (lineText (lineOf [0x45, 0x3A, 0x35])) = none ∧
    findE (lineText (lineOf textBadInt)) = some 0 ∧ parseInt ((lineText (lineOf textBadInt)).drop (0 + 2)) = none := by
  decide

theorem witness_ValidityFlagMeansMarkersAndInteger : 0 < (lineOf textGarbage).len.val := by decide

theorem witness_CommandFramesDeliverAngleAndDirection : base.cfg.Valid := by decide

/-- A command line: sign, digits and separator of your choice. -/
def senderLine (sign digits sep : List Byte) (dir : Byte) : List Byte :=
  [0x45, 0x3A] ++ sign ++ digits ++ sep ++ [0x44, 0x3A, dir]

-- Each sign, with and without the space, both endings, the longest line and one with the fewest digits.
theorem witness_StreamedLineDeliversItsCommand :
    base.cfg.Valid ∧ base.len.val = 0 ∧ ([0x2D] : List Byte) ∈ [[], [0x2B], ([0x2D] : List Byte)] ∧
    ([0x37, 0x35] : List Byte) ≠ [] ∧ (∀ b ∈ ([0x30, 0x39] : List Byte), 0x30 ≤ b.toNat ∧ b.toNat ≤ 0x39) ∧
    (senderLine [] (List.replicate 26 0x39) [] 0x46).length = 31 ∧
    (senderLine [0x2B] (List.replicate 24 0x30) [0x20] 0x42).length = 31 ∧
    (senderLine [0x2D] [0x37, 0x35] [0x20] 0x53).length ≤ 31 ∧
    ({ base with agenda := (senderLine [] [0x35] [] 0x46 ++ [0x0D, 0x0A]).map .byte } : State).agenda =
      (senderLine [] [0x35] [] 0x46 ++ [0x0D, 0x0A]).map .byte ++ [] ∧
    ({ base with agenda := (senderLine [0x2D] [0x35] [0x20] 0x46 ++ [0x0A]).map .byte ++ [.event .cycle] } : State).agenda =
      (senderLine [0x2D] [0x35] [0x20] 0x46 ++ [0x0A]).map .byte ++ [.event .cycle] ∧
    senderLine [] [0x37, 0x35] [0x20] 0x46 = text75F := by decide

-- Both sides of the threshold, the same mode and another, with a dwell and without.
theorem witness_ArbiterChangesModeThroughSafeStop :
    (base.ch.get .mode).fresh = false ∧ ((modeFresh 1500).ch.get .mode).fresh = true ∧
    ((modeFresh 1500).ch.get .mode).latestWidthUs.toNat ≤ 1500 ∧
    ¬ ((modeFresh 1501).ch.get .mode).latestWidthUs.toNat ≤ 1500 ∧
    ActiveMode.auto.toMode = ({ modeFresh 1500 with mode := .auto } : State).mode ∧
    ActiveMode.manual.toMode ≠ (modeFresh 1501).mode ∧ base.dwellActive = false ∧ dwelling.dwellActive = true := by decide

theorem witness_UndeterminedHoldWritesNeutralAndStop : base.dwellActive = false ∧ dwelling.dwellActive = true := by
  decide

theorem witness_SteerPulseIsReversedAndBounded :
    Config.cfgA.Valid ∧ InDomain Config.cfgA 0 ∧ InDomain Config.cfgA 180 ∧ (-5 : Int) < 500 ∧
    Config.cfgA.domainMax - Config.cfgA.domainMin ≤ Config.cfgA.outputMax - Config.cfgA.outputMin :=
  ⟨by decide, ⟨by decide, by decide⟩, ⟨by decide, by decide⟩, by decide, by decide⟩

theorem witness_SteerCommandWritesTheMappedPulse : baseB.cfg.Valid := by decide

-- The three branches.
theorem witness_DriveCommandDefersDwellsOrWrites :
    dwelling.dwellActive = true ∧
    (({ base with prevDir := .forward } : State).dwellActive = false ∧
      ({ base with prevDir := .forward } : State).prevDir = .forward) ∧
    (base.dwellActive = false ∧ base.prevDir = .stop) := by decide

-- The microsecond before the end of the dwell, and its end.
theorem witness_DwellServiceEndsAnExpiredDwell :
    dwelling.dwellActive = true ∧
    dwelling.cfg.reversalDwellMs * 1000 ≤ (((200000 + 4294967296 - dwelling.dwellStartUs.toNat) % 4294967296 : Nat) : Int) ∧
    (((199999 + 4294967296 - dwelling.dwellStartUs.toNat) % 4294967296 : Nat) : Int) <
      dwelling.cfg.reversalDwellMs * 1000 ∧ base.dwellActive = false := by decide

theorem witness_DwellComparisonIsExactWithinTheCyclePeriod :
    dwelling.cfg.Valid ∧ dwelling.dwellActive = true ∧ ((199999 : Nat) : Int) < dwelling.cfg.reversalDwellMs * 1000 ∧
    20000 ≤ dwelling.cfg.cyclePeriodUs ∧
    (dwelling.cfg.cyclePeriodUs : Int) < 4294967296 - dwelling.cfg.reversalDwellMs * 1000 ∧
    ({ dwelling with nowUs := 219999 } : State).nowUs = dwelling.dwellStartUs + BitVec.ofNat 32 (199999 + 20000) := by
  decide

-- The drive running forward, and what happens in a dwell: services up to a microsecond before its end, or none and a wait
-- beyond it; then the last service a microsecond early and just in time.
theorem witness_ReversalWritesOneStopThenTheLastDirection :
    ({ base with prevDir := .forward } : State).cfg.Valid ∧ ({ base with prevDir := .forward } : State).dwellActive = false ∧
    ({ base with prevDir := .forward } : State).prevDir = .forward ∧
    (waited [.command .stop, .wait 50000, .service, .command .forward, .wait 149999, .service] : Int) <
      base.cfg.reversalDwellMs * 1000 ∧
    lastCommand .backward [.command .stop, .wait 50000, .service, .command .forward, .wait 149999, .service] = .forward ∧
    DwellAct.service ∉ [.wait 300000, .command .stop] ∧ lastCommand .backward [.wait 7] = .backward ∧
    ((waited [.wait 199999] + 0 : Nat) : Int) < base.cfg.reversalDwellMs * 1000 ∧
    base.cfg.reversalDwellMs * 1000 ≤ ((waited [.wait 199999] + 1 : Nat) : Int) ∧
    waited [.wait 199999] + 4294767296 < 4294967296 := by
  decide

-- The first application leaves no dwell, and leaves one.
theorem witness_RepeatedCommandRepeatsItsPulses :
    goesTo (execAll [.steerCmd 90, .driveCmd .forward] base) (fun t => !t.dwellActive) = true ∧
    goesTo (execAll [.steerCmd 90, .driveCmd .backward] { base with prevDir := .forward }) (fun t => t.dwellActive) = true := by
  decide

-- With no dwell and during one, in states of the invariant.
theorem witness_StopAllForcesTheSafeOutputs :
    (pending.dwellActive = false ∧ Inv pending) ∧ (dwellingAuto.dwellActive = true ∧ Inv dwellingAuto) :=
  ⟨⟨by decide, inv_pending⟩, ⟨by decide, inv_dwellingAuto⟩⟩

theorem witness_AutoApplyConsumesThePendingCommand :
    base.cmdPending = false ∧ ({ base with cmdPending := true } : State).cmdPending = true := by decide

theorem witness_ManualSteeringPassesTheClampedWidth :
    (base.ch.get .steer).fresh = false ∧ ((base.ch.set .steer (captured 999)).get .steer).fresh = true := by decide

theorem witness_ManualDriveAttenuatesTheDeviation :
    base.cfg.Valid ∧ (base.ch.get .throt).fresh = false ∧ dwelling.dwellActive = true ∧
    ((base.ch.set .throt (captured 2001)).get .throt).fresh = true ∧ base.dwellActive = false := by decide

-- A pulse as long as the period, and the usual one.
theorem witness_OutputFrameIsHighForTheRegister :
    base.steerOutUs = ((1500 : Nat) : Int) ∧ 1500 ≤ base.cfg.pwmPeriodUs ∧
    ({ base with driveOutUs := 20000 } : State).driveOutUs = ((20000 : Nat) : Int) ∧ 20000 ≤ base.cfg.pwmPeriodUs := by
  decide

-- The edges of the deadband and the values beside them; the microsecond before a toggle is due, and the next.
theorem witness_IndicatorBlinksOutsideTheDeadband :
    (-100 : Int) = (((captured 1400).latestWidthUs.toNat : Nat) : Int) - 1500 ∧
    (100 : Int) = (((captured 1600).latestWidthUs.toNat : Nat) : Int) - 1500 ∧
    (-101 : Int) = (((captured 1399).latestWidthUs.toNat : Nat) : Int) - 1500 ∧
    (101 : Int) = (((captured 1601).latestWidthUs.toNat : Nat) : Int) - 1500 ∧
    200000 ≤ (200000 + 4294967296 - base.blinkLastUs.toNat) % 4294967296 ∧
    (199999 + 4294967296 - base.blinkLastUs.toNat) % 4294967296 < 200000 := by decide

/-- A turn in Manual mode when a toggle is due. -/
def blinking : State := { idle with mode := .manual, nowUs := 200000, ch := base.ch.set .steer (captured 1601) }

theorem witness_TogglePhaseIsKeptElsewhere :
    ∃ t, step blinking = .next t ∧ (fetch blinking).1 ≠ .event .reset ∧ t.blinkState ≠ blinking.blinkState :=
  ⟨_, rfl, by decide, by decide⟩

-- A transition cycle, and an ordinary one in each mode.
theorem witness_CycleRunsItsPhasesInOrder :
    (∃ a, exec .arbEval (modeFresh 1200) = .next a ∧ a.mode ≠ (modeFresh 1200).mode) ∧
    (∃ a, exec .arbEval base = .next a ∧ a.mode = base.mode ∧ base.mode = .undetermined) ∧
    (∃ a, exec .arbEval { base with mode := .auto } = .next a ∧ a.mode = .auto) ∧
    (∃ a, exec .arbEval blinking = .next a ∧ a.mode = blinking.mode ∧ blinking.mode = .manual) :=
  ⟨⟨_, rfl, by decide⟩, ⟨_, rfl, rfl, rfl⟩, ⟨_, rfl, rfl⟩, ⟨_, rfl, rfl, rfl⟩⟩

theorem witness_ModeChangeEndsInSafeStop :
    ∃ t, Inv (modeFresh 1200) ∧ step (modeFresh 1200) = .next t ∧ t.mode ≠ (modeFresh 1200).mode :=
  ⟨_, inv_modeFresh, rfl, by decide⟩

-- No change of mode, and a change to each active mode.
theorem witness_EachModeChangeIsAnnouncedOnce :
    (∃ t, step idle = .next t ∧ t.mode = idle.mode) ∧
    (∃ t, step (modeFresh 1200) = .next t ∧ t.mode ≠ (modeFresh 1200).mode ∧ t.mode = ActiveMode.auto.toMode) ∧
    (∃ t, step (modeFresh 1501) = .next t ∧ t.mode ≠ (modeFresh 1501).mode ∧ t.mode = ActiveMode.manual.toMode) :=
  ⟨⟨_, rfl, by decide⟩, ⟨_, rfl, by decide, by decide⟩, ⟨_, rfl, by decide, by decide⟩⟩

theorem witness_UndeterminedIsEnteredByResetAlone :
    (∃ t, exec .reset { base with mode := .auto } = .next t ∧ t.mode = .undetermined) ∧
    (({ base with mode := .auto } : State).ch.get .mode).fresh = false := ⟨⟨_, rfl, by decide⟩, by decide⟩

-- One step of each agent.
theorem witness_EveryElementHasOneWriter :
    (∃ t, step (withAgenda (.byte 0x0A)) = .next t) ∧
    (∃ t, step (withAgenda (.event (.pin 2 1))) = .next t ∧ channelOfCode 2 = some .mode) ∧
    (∃ t, step (withAgenda (.event (.tick 5))) = .next t) ∧
    (∃ t, step (withAgenda (.event .cycle)) = .next t) :=
  ⟨⟨_, rfl⟩, ⟨_, rfl, by decide⟩, ⟨_, rfl⟩, ⟨_, rfl⟩⟩

theorem witness_NoOperationWritesTheConfiguration : ∃ t, exec .stopAll baseB = .next t := ⟨_, rfl⟩

-- Bytes that differ from `len` on; a step that goes on and one that is refused.
theorem witness_BytesBeyondLenAreNeverRead :
    (∀ j : Fin 32, j.val < (withAgenda (.byte 0x0A)).len.val →
      ((withAgenda (.byte 0x0A)).buf.set 2 0x46)[j.val] = (withAgenda (.byte 0x0A)).buf[j.val]) ∧
    (∃ t, step (withAgenda (.byte 0x0A)) = .next t) ∧
    (∃ r, step (withAgenda (.event (.pin 3 1))) = .refused r) := ⟨by decide, ⟨_, rfl⟩, ⟨_, rfl⟩⟩

-- The end of a dwell by its expiry, and by RESET.
theorem witness_DwellEndsOnlyByExpiryOrReset :
    (∃ t, step { dwelling with nowUs := 200000, agenda := [.event .cycle] } = .next t ∧ dwelling.dwellActive = true ∧ t.dwellActive = false) ∧
    (∃ t, step { dwelling with agenda := [.event .reset] } = .next t ∧ t.dwellActive = false) :=
  ⟨⟨_, rfl, by decide, by decide⟩, ⟨_, rfl, by decide⟩⟩

theorem witness_CommandsOutsideAutoMoveNothing : base.mode ≠ .auto ∧ blinking.mode ≠ .auto := by decide

theorem witness_UndeterminedCycleWritesNeutralAndStop :
    Inv pending ∧ pending.mode = .undetermined ∧ (pending.ch.get .mode).fresh = false :=
  ⟨inv_pending, by decide, by decide⟩

-- A step that stays Undetermined, and one that ends it.
theorem witness_UndeterminedEndsOnlyByACapturedModeWidth :
    (∃ t, Inv pending ∧ step pending = .next t ∧
      t.mode = .undetermined) ∧
    (∃ t, Inv (modeFresh 1200) ∧ (modeFresh 1200).mode = .undetermined ∧ step (modeFresh 1200) = .next t ∧
      t.mode = .auto) :=
  ⟨⟨_, inv_pending, rfl, by decide⟩, ⟨_, inv_modeFresh, by decide, rfl, by decide⟩⟩

theorem witness_InvariantHoldsAtReset : Config.cfgA.Valid ∧ Config.cfgB.Valid := by decide

theorem witness_EveryStepKeepsTheInvariant : ∃ t, Inv (modeFresh 1200) ∧ step (modeFresh 1200) = .next t :=
  ⟨_, inv_modeFresh, rfl⟩

theorem witness_DiagnosticTapsCopyTheState :
    Inv (modeFresh 1200) ∧ -32768 ≤ (modeFresh 1200).cfg.domainMin ∧ (modeFresh 1200).cfg.domainMax ≤ 32767 :=
  ⟨inv_modeFresh, by decide, by decide⟩

end Sys2Proof.Tests
end

/-! ## Outbound lines: the trace between two states, and what of it is sent (R9, R156) -/

namespace Sys2Proof.Machine

@[simp] theorem txLines_append (es fs : List Event) : txLines (es ++ fs) = txLines es ++ txLines fs := by
  induction es with
  | nil => rfl
  | cons e es ih => cases e <;> simp [txLines, ih]

/-- From `s` to `t` the trace has only grown, and its new outbound lines are `ls`. -/
def Sends (ls : List (List Byte)) (s t : State) : Prop := ∃ es, t.trace = s.trace ++ es ∧ txLines es = ls

theorem Sends.of_trace_eq {s t : State} (h : t.trace = s.trace) : Sends [] s t := ⟨[], by simp [h], rfl⟩

theorem Sends.of_trace_append {s t : State} {es : List Event} (h : t.trace = s.trace ++ es) :
    Sends (txLines es) s t := ⟨es, h, rfl⟩

theorem Sends.trans {ls ms : List (List Byte)} {s t u : State} (h₁ : Sends ls s t) (h₂ : Sends ms t u) :
    Sends (ls ++ ms) s u := by
  obtain ⟨es, hes, rfl⟩ := h₁
  obtain ⟨fs, hfs, rfl⟩ := h₂
  exact ⟨es ++ fs, by rw [hfs, hes, List.append_assoc], txLines_append es fs⟩

/-- Two parts of a run that send nothing make one that sends nothing. -/
theorem Sends.quiet_trans {s t u : State} (h₁ : Sends [] s t) (h₂ : Sends [] t u) : Sends [] s u := h₁.trans h₂

/-! ### The operations that send nothing -/

theorem deliver_sends_nothing (r : Int × Direction × Bool) (s : State) : Sends [] s (deliver r s) :=
  .of_trace_append (deliver_trace r s)

theorem steerCmd_sends_nothing (a : Int) (s : State) : Sends [] s (steerCmd a s) :=
  .of_trace_append (steerCmd_trace a s)

theorem driveCmd_sends_nothing (d : Direction) (s : State) : Sends [] s (driveCmd d s) := by
  unfold driveCmd
  split
  · exact .of_trace_eq rfl
  · split <;> exact .of_trace_append (writeDrive_trace _ _)

theorem dwellService_sends_nothing (s : State) : Sends [] s (dwellService s) := by
  unfold dwellService
  split
  · exact .of_trace_append (writeDrive_trace _ _)
  · exact .of_trace_eq rfl

theorem stopAll_sends_nothing (s : State) : Sends [] s (stopAll s) :=
  (steerCmd_sends_nothing (mid s.cfg) s).quiet_trans (driveCmd_sends_nothing .stop _)

theorem undetHold_sends_nothing (s : State) : Sends [] s (undetHold s) :=
  (steerCmd_sends_nothing (mid s.cfg) s).quiet_trans (driveCmd_sends_nothing .stop _)

theorem autoApply_sends_nothing (s : State) : Sends [] s (autoApply s) := by
  unfold autoApply
  split
  · exact (steerCmd_sends_nothing s.cmdAngle (discardCommand s)).quiet_trans (driveCmd_sends_nothing s.cmdDir _)
  · exact .of_trace_eq rfl

theorem manualSteer_sends_nothing (s : State) : Sends [] s (manualSteer s) := by
  unfold manualSteer
  split
  · exact .of_trace_append (writeSteer_trace _ _)
  · exact .of_trace_eq rfl

theorem manualDrive_sends_nothing (s : State) : Sends [] s (manualDrive s) := by
  unfold manualDrive
  split
  · exact .of_trace_append (writeDrive_trace _ _)
  · exact .of_trace_eq rfl

theorem handler_sends_nothing (s : State) : Sends [] s (handler s) := by
  unfold handler
  split
  · exact undetHold_sends_nothing s
  · exact (manualSteer_sends_nothing s).quiet_trans (manualDrive_sends_nothing _)
  · exact autoApply_sends_nothing s

/-! ### The announcement of a mode change -/

theorem transition_sends_announcement (m : ActiveMode) (s : State) : Sends [announcement m] s (transition m s) :=
  (stopAll_sends_nothing s).trans (.of_trace_append (txMode_trace m _))

theorem toMode_ne_undetermined (m : ActiveMode) : m.toMode ≠ .undetermined := by cases m <;> decide

theorem toMode_injective {m n : ActiveMode} (h : m.toMode = n.toMode) : m = n := by
  cases m <;> cases n <;> simp_all [ActiveMode.toMode]

/-- What a step may send: nothing, where it keeps the mode or ends Undetermined; or the announcement of the active mode
it changes to. -/
inductive ModeAnnounced (s t : State) : Prop where
  | quiet (sends : Sends [] s t) (mode : t.mode = s.mode ∨ t.mode = .undetermined)
  | announced (m : ActiveMode) (sends : Sends [announcement m] s t) (mode : t.mode = m.toMode)
      (changed : t.mode ≠ s.mode)

theorem ModeAnnounced.of_unchanged {s t : State} (htrace : t.trace = s.trace) (hmode : t.mode = s.mode) :
    ModeAnnounced s t := .quiet (.of_trace_eq htrace) (.inl hmode)

theorem arbEval_modeAnnounced (s : State) : ModeAnnounced s (arbEval s).2 := by
  cases hf : (s.ch.get .mode).fresh with
  | false =>
    rw [arbEval_stale hf]
    exact .of_unchanged rfl rfl
  | true =>
    by_cases hm : (classify (s.ch.get .mode).latestWidthUs).toMode = s.mode
    · rw [arbEval_same hf hm]
      exact .of_unchanged rfl rfl
    · rw [arbEval_change hf hm]
      exact .announced _ (transition_sends_announcement _ (sample .mode s).2) rfl hm

/-- What follows without sending or changing the mode keeps the account. -/
theorem ModeAnnounced.then_quiet {s t u : State} (h : ModeAnnounced s t) (hs : Sends [] t u) (hm : u.mode = t.mode) :
    ModeAnnounced s u := by
  cases h with
  | quiet sends mode => exact .quiet (sends.quiet_trans hs) (hm ▸ mode)
  | announced m sends mode changed => exact .announced m (sends.trans hs) (hm ▸ mode) (hm ▸ changed)

/-- What comes before without sending or changing the mode keeps the account too. -/
theorem ModeAnnounced.after_quiet {s t u : State} (h : ModeAnnounced t u) (hs : Sends [] s t) (hm : t.mode = s.mode) :
    ModeAnnounced s u := by
  cases h with
  | quiet sends mode => exact .quiet (hs.quiet_trans sends) (hm ▸ mode)
  | announced m sends mode changed => exact .announced m (hs.trans sends) mode (hm ▸ changed)

/-- A CYCLE says what its arbiter says: no later phase sends a line or changes the mode. -/
theorem cycle_modeAnnounced (s : State) : ModeAnnounced s (cycle s) := by
  have ha := arbEval_modeAnnounced s
  cases h : (arbEval s).1 with
  | true =>
    rw [cycle_transition h]
    exact ha.then_quiet (dwellService_sends_nothing _) (dwellService_mode _)
  | false =>
    rw [cycle_ordinary h]
    have hsends := ((handler_sends_nothing (arbEval s).2).quiet_trans (dwellService_sends_nothing _)).quiet_trans
      (.of_trace_eq (indicatorPhase_trace _))
    exact ha.then_quiet hsends (by simp)

@[simp] theorem fetch_snd_trace (s : State) : (fetch s).2.trace = s.trace := by rw [fetch_snd]

@[simp] theorem fetch_snd_mode (s : State) : (fetch s).2.mode = s.mode := by rw [fetch_snd]

theorem step_modeAnnounced {s t : State} (h : step s = .next t) : ModeAnnounced s t := by
  obtain ⟨-, ⟨-, rfl⟩ | ⟨d, -, rfl⟩ | ⟨_, v, c, -, -, rfl⟩ | ⟨-, rfl⟩ | ⟨-, ⟨-, rfl⟩ | ⟨-, rfl⟩⟩ | ⟨-, rfl⟩ |
    ⟨b, -, -, rfl⟩⟩ := step_cases h
  · -- RESET
    exact .quiet (.of_trace_eq (by simp)) (.inr rfl)
  · -- TICK
    exact .of_unchanged (by simp) (by simp)
  · -- PIN
    exact .of_unchanged (by simp) (by simp)
  · -- CYCLE
    exact (cycle_modeAnnounced _).after_quiet (.of_trace_eq (fetch_snd_trace s)) (fetch_snd_mode s)
  · -- LF on an empty line
    exact .of_unchanged (by simp) (by simp)
  · -- LF that completes a line: the decoded command is recorded, which is no outbound line
    have hsends : Sends [] s (deliver (lineResult s.cfg (lineText s)) (fetch s).2) :=
      (Sends.of_trace_eq (fetch_snd_trace s)).quiet_trans (deliver_sends_nothing _ _)
    exact .quiet (hsends.quiet_trans (.of_trace_eq (clearLine_trace _))) (.inl (by simp))
  · -- CR
    exact .of_unchanged (by simp) (by simp)
  · -- a data byte
    exact .of_unchanged (by simp) (by simp)

/-- Settles O49: the arbiter's transition is the one place a step sends a line, and the one place but RESET where it
changes the mode. -/
theorem eachModeChangeIsAnnouncedOnce : Obligations.EachModeChangeIsAnnouncedOnce := by
  intro s t h
  cases step_modeAnnounced h with
  | quiet sends mode =>
    obtain ⟨es, htrace, hlines⟩ := sends
    refine ⟨es, htrace, fun _ => hlines, fun m hne hm => ?_⟩
    exact (mode.elim hne (fun hu => toMode_ne_undetermined m (hm ▸ hu))).elim
  | announced n sends mode changed =>
    obtain ⟨es, htrace, hlines⟩ := sends
    refine ⟨es, htrace, fun hkeep => ?_, fun m _ hm => ?_⟩
    · exact (hkeep.elim changed (fun hu => toMode_ne_undetermined n (mode ▸ hu))).elim
    · rw [hlines, toMode_injective (mode.symm.trans hm)]

/-! ## One step as `exec` (R8, R214) -/

/-- A step is `exec` of the operation that the next stimulus decodes to, on the state with that stimulus taken. -/
theorem step_of_decodeStimulus {s : State} {i : Instr} (hv : s.cfg.Valid) (hi : decodeStimulus (fetch s).1 = .ok i) :
    step s = exec i (fetch s).2 := by
  have hc : configProblem s.cfg = none := hv
  simp only [step, hc, hi]

/-- Settles O8: `fetch` takes the head of the agenda, or a free choice, and every free choice is an operation. -/
theorem stepRunsTheDecodedOperation : Obligations.StepRunsTheDecodedOperation := by
  intro s hv
  refine ⟨fun x rest i hagenda hi => ?_, fun hagenda => ?_⟩
  · have hf := fetch_cons hagenda
    rw [step_of_decodeStimulus hv (i := i) (by rw [hf]; exact hi), hf]
  · obtain ⟨i, hi⟩ := decodeStimulus_act (Config.freeAct s.turn)
    have hf := fetch_nil hagenda
    exact ⟨i, hi, by rw [step_of_decodeStimulus hv (i := i) (by rw [hf]; exact hi), hf]⟩

/-! ## The accepted configurations (R5, R7) -/

theorem pulseOk_iff (p : Int) : pulseOk p = true ↔ 0 ≤ p ∧ p ≤ 4294967295 := by
  simp only [pulseOk, tsW, Bool.and_eq_true, decide_eq_true_eq]
  omega

/-- One check of a chain of checks, of which the first that fails is named. -/
theorem check_eq_none_iff {α : Type} (c : Prop) [Decidable c] (e : α) (o : Option α) :
    (if ¬ c then some e else o) = none ↔ c ∧ o = none := by
  by_cases hc : c <;> simp [hc]

/-- R7 and R5 as one conjunction, in the order of the checks. -/
theorem valid_iff (g : Config) : g.Valid ↔
    g.domainMin < g.domainMax ∧ g.outputMin < g.outputMax ∧ 1 ≤ g.manualDivisor ∧
      (0 ≤ g.reversalDwellMs ∧ g.reversalDwellMs * 1000 < 2 ^ 31) ∧
      (pulseOk g.outputMin ∧ pulseOk g.outputMax ∧ pulseOk g.stopPulse ∧ pulseOk g.forwardPulse ∧
        pulseOk g.reversePulse) ∧
      g.manualDwell = false := by
  simp only [Config.Valid, configProblem, check_eq_none_iff]
  cases g.manualDwell <;> simp

/-- Settles O10: the chain of checks as one conjunction, with the bounds of the dwell and the pulses in numbers. -/
theorem acceptedConfigurationsMeetTheConstraints : Obligations.AcceptedConfigurationsMeetTheConstraints := by
  intro g
  refine ⟨?_, mid_bounds g⟩
  simp [valid_iff, pulseOk_iff, and_assoc]

end Sys2Proof.Machine

namespace Sys2Proof.Machine

/-! ## The invariant of the core: what the operations work with -/

theorem calibrated_inDomain {g : Config} (h : g.Valid) (a : Int) : InDomain g (calibrated g a) :=
  clampDomain_bounds h _

theorem steerPulse_bounds {g : Config} (h : g.Valid) {a : Int} (ha : InDomain g a) :
    g.outputMin ≤ steerPulse g a ∧ steerPulse g a ≤ g.outputMax := by
  obtain ⟨hlo, hhi⟩ := ha
  have hd := valid_domain h
  have ho := valid_output h
  have hnonneg : 0 ≤ (a - g.domainMin) * (g.outputMax - g.outputMin) / (g.domainMax - g.domainMin) :=
    Int.ediv_nonneg (mul_nonneg (by omega) (by omega)) (by omega)
  have hle : (a - g.domainMin) * (g.outputMax - g.outputMin) / (g.domainMax - g.domainMin) ≤
      g.outputMax - g.outputMin := by
    refine Int.ediv_le_of_le_mul (by omega) ?_
    rw [mul_comm]
    exact mul_le_mul_of_nonneg_left (by omega) (by omega)
  unfold steerPulse
  omega

/-- A completed line delivers the fallback command, or a valid one with its angle clamped (R124, R126, R127). -/
theorem lineResult_cases (g : Config) (s : List Byte) :
    lineResult g s = fallback g ∨ ∃ v d, lineResult g s = (clampDomain g v, d, true) := by
  unfold lineResult
  split
  · split
    · exact .inr ⟨_, _, rfl⟩
    · exact .inl rfl
  · exact .inl rfl

/-- The text of the buffer grows by the stored byte, or is dropped (R123). -/
theorem lineText_storeByte_cases (b : Byte) (s : State) :
    lineText (storeByte b s) = lineText s ++ [b] ∨ lineText (storeByte b s) = [] := by
  by_cases hroom : s.len.val < 31
  · exact .inl (lineText_storeByte b hroom)
  · have := s.len.isLt
    exact .inr (by rw [storeByte_full b (by omega)]; exact lineText_empty rfl)

@[simp] theorem lineText_clearLine (s : State) : lineText (clearLine s) = [] := lineText_empty rfl

/-- A data byte concerns the line buffer alone (R29). -/
theorem storeByte_frame (b : Byte) (s : State) :
    storeByte b s = { s with buf := (storeByte b s).buf, len := (storeByte b s).len } := by
  apply State.ext <;> simp

/-- A PIN event concerns the pins and the channel records alone (R29). -/
theorem pinEvent_frame (c : Channel) (v : Bool) (s : State) :
    pinEvent c v s = { s with pwmIn := (pinEvent c v s).pwmIn, ch := (pinEvent c v s).ch } := by
  apply State.ext <;> simp

/-- The record of the channel that the event is for, case by case (R100 to R103). -/
theorem pinEvent_ch_get (c : Channel) (v : Bool) (s : State) : (pinEvent c v s).ch.get c =
    (if v = (s.ch.get c).line then s.ch.get c
     else if v then { s.ch.get c with line := true, riseTsUs := s.nowUs, armed := true }
     else if (s.ch.get c).armed then
       { s.ch.get c with line := false, latestWidthUs := elapsed s.nowUs (s.ch.get c).riseTsUs, fresh := true }
     else { s.ch.get c with line := false }) := by
  rw [pinEvent_ch, PerChannel.get_set]

theorem pinEvent_ch_get_ne {c c' : Channel} (hc : c' ≠ c) (v : Bool) (s : State) :
    (pinEvent c v s).ch.get c' = s.ch.get c' := by
  rw [pinEvent_ch, PerChannel.get_set_ne _ _ hc]

theorem pinEvent_line (c : Channel) (v : Bool) (s : State) : ((pinEvent c v s).ch.get c).line = v := by
  rw [pinEvent_ch_get]
  split
  · next heq => exact heq.symm
  · cases v <;> simp [apply_ite]

/-- A channel that is unarmed after an event was unarmed before it, and its width and its flag are as they were. -/
theorem pinEvent_unarmed {c : Channel} {v : Bool} {s : State} (h : ((pinEvent c v s).ch.get c).armed = false) :
    (s.ch.get c).armed = false ∧ ((pinEvent c v s).ch.get c).latestWidthUs = (s.ch.get c).latestWidthUs ∧
      ((pinEvent c v s).ch.get c).fresh = (s.ch.get c).fresh := by
  rw [pinEvent_ch_get] at h ⊢
  split at h
  · next heq => simp [heq, h]
  · next hne =>
    cases v with
    | true => simp at h
    | false => cases harmed : (s.ch.get c).armed <;> simp_all

/-- SAMPLE clears the flag of its channel and leaves the records otherwise as they are (R107). -/
theorem sample_ch_get (c c' : Channel) (s : State) : (sample c s).2.ch.get c' = s.ch.get c' ∨
    (sample c s).2.ch.get c' = { s.ch.get c' with fresh := false } := by
  by_cases hc : c' = c
  · subst hc
    exact .inr (PerChannel.get_set _ _ _)
  · exact .inl (PerChannel.get_set_ne _ _ hc)

/-! ## The invariant of the core: each operation keeps it -/

/-- The state after reset has the invariant (R30). -/
theorem inv_resetOf {g : Config} (hv : g.Valid) (pins : PerChannel Bool) : Inv (State.resetOf g pins) where
  config := hv
  lines c := by cases c <;> rfl
  unarmed c _ := by cases c <;> exact ⟨rfl, rfl⟩
  text := by simp [lineText, State.resetOf]
  command := mid_in_domain hv
  fallbackCommand _ := ⟨rfl, rfl⟩
  angle := calibrated_inDomain hv _
  steering := .inl (steerPulse_bounds hv (calibrated_inDomain hv _))
  drive := .inl ⟨.stop, rfl⟩
  dwellHoldsStop h := nomatch h
  dwellPending h := nomatch h
  dwellPrevious h := nomatch h
  noDwellPrevious _ := rfl
  indicatorMode _ := ⟨rfl, rfl⟩
  oneIndicator h := nomatch h.1
  indicatorPhase h := nomatch h
  undetermined _ := ⟨rfl, rfl, rfl, rfl, rfl⟩
  manual _ := ⟨rfl, rfl⟩

theorem inv_resetEvent {s : State} (h : Inv s) : Inv (resetEvent s) := { inv_resetOf h.config s.pwmIn with }

/-- Taking the stimulus changes no element of the core. -/
theorem inv_fetch {s : State} (h : Inv s) : Inv (fetch s).2 := by
  rw [fetch_snd]
  exact { h with }

theorem inv_advance {s : State} (d : Nat) (h : Inv s) : Inv (advance d s) := { h with }

theorem inv_pinEvent {s : State} (c : Channel) (v : Bool) (h : Inv s) : Inv (pinEvent c v s) := by
  rw [pinEvent_frame]
  refine { h with lines := fun c' => ?_, unarmed := fun c' ha => ?_ }
  · show ((pinEvent c v s).ch.get c').line = (pinEvent c v s).pwmIn.get c'
    rw [pinEvent_pwmIn]
    by_cases hc : c' = c
    · subst hc
      rw [pinEvent_line, PerChannel.get_set]
    · rw [pinEvent_ch_get_ne hc, PerChannel.get_set_ne _ _ hc]
      exact h.lines c'
  · show ((pinEvent c v s).ch.get c').latestWidthUs = neutralWidth ∧ ((pinEvent c v s).ch.get c').fresh = false
    replace ha : ((pinEvent c v s).ch.get c').armed = false := ha
    by_cases hc : c' = c
    · subst hc
      obtain ⟨hbefore, hwidth, hfresh⟩ := pinEvent_unarmed ha
      rw [hwidth, hfresh]
      exact h.unarmed c' hbefore
    · rw [pinEvent_ch_get_ne hc] at ha ⊢
      exact h.unarmed c' ha

theorem inv_sample {s : State} (c : Channel) (h : Inv s) : Inv (sample c s).2 := by
  refine { h with lines := fun c' => ?_, unarmed := fun c' ha => ?_ }
  · rcases sample_ch_get c c' s with hg | hg <;> rw [hg] <;> exact h.lines c'
  · rcases sample_ch_get c c' s with hg | hg <;> rw [hg] at ha ⊢
    · exact h.unarmed c' ha
    · exact ⟨(h.unarmed c' ha).1, rfl⟩

/-! ### The line decoder -/

theorem inv_clearLine {s : State} (h : Inv s) : Inv (clearLine s) :=
  { h with text := by simp }

theorem inv_storeByte {s : State} {b : Byte} (hb : isDataByte b = true) (h : Inv s) : Inv (storeByte b s) := by
  have htext : ∀ x ∈ lineText (storeByte b s), isDataByte x = true := by
    rcases lineText_storeByte_cases b s with ht | ht <;> rw [ht]
    · simpa [or_imp, forall_and, hb] using h.text
    · simp
  rw [storeByte_frame] at htext ⊢
  exact { h with text := htext }

theorem inv_deliver {s : State} {r : Int × Direction × Bool} (hangle : InDomain s.cfg r.1)
    (hinvalid : r.2.2 = false → r.1 = mid s.cfg ∧ r.2.1 = .stop) (h : Inv s) : Inv (deliver r s) :=
  { h with command := hangle, fallbackCommand := hinvalid }

theorem inv_deliver_lineResult {s : State} (text : List Byte) (h : Inv s) :
    Inv (deliver (lineResult s.cfg text) s) := by
  rcases lineResult_cases s.cfg text with hr | ⟨v, d, hr⟩ <;> rw [hr]
  · exact inv_deliver (mid_in_domain h.config) (fun _ => ⟨rfl, rfl⟩) h
  · exact inv_deliver (clampDomain_bounds h.config v) (fun hf => nomatch hf) h

/-! ### The outputs

Outside Auto the actuators are commanded to the centre and to Stop only, which is what `undetermined` and `manual`
rest on. -/

theorem inv_discardCommand {s : State} (h : Inv s) : Inv (discardCommand s) := { h with }

theorem inv_indicatorsOff {s : State} (h : Inv s) : Inv (indicatorsOff s) :=
  { h with
    indicatorMode := fun _ => ⟨rfl, rfl⟩
    oneIndicator := fun hb => nomatch hb.1
    indicatorPhase := fun hb => nomatch hb }

theorem inv_steerCmd {s : State} {a : Int} (ha : s.mode ≠ .auto → a = mid s.cfg) (h : Inv s) :
    Inv (steerCmd a s) :=
  { h with
    angle := calibrated_inDomain h.config a
    steering := .inl (steerPulse_bounds h.config (calibrated_inDomain h.config a))
    undetermined := fun hm => by
      obtain ⟨-, hdrive, -, hdir, hdwell⟩ := h.undetermined hm
      obtain rfl := ha (fun hauto => nomatch hm.symm.trans hauto)
      exact ⟨rfl, hdrive, rfl, hdir, hdwell⟩
    manual := fun hm => by
      obtain rfl := ha (fun hauto => nomatch hm.symm.trans hauto)
      exact ⟨(h.manual hm).1, rfl⟩ }

theorem inv_driveCmd {s : State} {d : Direction} (hd : s.mode ≠ .auto → d = .stop) (h : Inv s) :
    Inv (driveCmd d s) := by
  have hstop {m : VehicleMode} (hm : s.mode = m) (hne : m ≠ .auto) : d = .stop := hd (hm ▸ hne)
  cases hdwell : s.dwellActive with
  | true =>
    rw [driveCmd_dwell d hdwell]
    exact { h with
      dwellPending := fun _ => rfl
      noDwellPrevious := fun hidle => nomatch hdwell.symm.trans hidle
      undetermined := fun hm => by
        obtain ⟨hsteer, hdrive, hangle, -, hidle⟩ := h.undetermined hm
        exact ⟨hsteer, hdrive, hangle, hstop hm (by decide), hidle⟩
      manual := fun hm => ⟨hstop hm (by decide), (h.manual hm).2⟩ }
  | false =>
    cases hrev : isReversal s.prevDir d with
    | true =>
      have hne : d ≠ .stop := by rintro rfl; simp at hrev
      have hprev : s.prevDir ≠ .stop := by
        rcases (isReversal_iff s.prevDir d).1 hrev with ⟨-, hp⟩ | ⟨-, hp⟩ <;> simp [hp]
      rw [driveCmd_reversal hdwell hrev]
      exact { h with
        drive := .inl ⟨.stop, rfl⟩
        dwellHoldsStop := fun _ => rfl
        dwellPending := fun _ => rfl
        dwellPrevious := fun _ => hprev
        noDwellPrevious := fun hidle => nomatch hidle
        undetermined := fun hm => absurd (hstop hm (by decide)) hne
        manual := fun hm => absurd (hstop hm (by decide)) hne }
    | false =>
      rw [driveCmd_direct hdwell hrev]
      exact { h with
        drive := .inl ⟨d, rfl⟩
        dwellHoldsStop := fun hactive => nomatch hdwell.symm.trans hactive
        dwellPending := fun hactive => nomatch hdwell.symm.trans hactive
        dwellPrevious := fun hactive => nomatch hdwell.symm.trans hactive
        noDwellPrevious := fun _ => rfl
        undetermined := fun hm => by
          obtain ⟨hsteer, -, hangle, -, -⟩ := h.undetermined hm
          obtain rfl := hstop hm (by decide)
          exact ⟨hsteer, rfl, hangle, rfl, hdwell⟩
        manual := fun hm => ⟨hstop hm (by decide), (h.manual hm).2⟩ }

theorem inv_dwellService {s : State} (h : Inv s) : Inv (dwellService s) := by
  cases hdwell : s.dwellActive with
  | false => rwa [dwellService_idle hdwell]
  | true =>
    cases hover : dwellOver s.cfg s.nowUs s.dwellStartUs with
    | false => rwa [dwellService_running hover]
    | true =>
      rw [dwellService_over hdwell hover]
      exact { h with
        drive := .inl ⟨s.pendingDir, rfl⟩
        dwellHoldsStop := fun hactive => nomatch hactive
        dwellPending := fun hactive => nomatch hactive
        dwellPrevious := fun hactive => nomatch hactive
        noDwellPrevious := fun _ => h.dwellPending hdwell
        undetermined := fun hm => by
          obtain ⟨-, -, -, -, hidle⟩ := h.undetermined hm
          exact nomatch hdwell.symm.trans hidle }

theorem inv_stopAll {s : State} (h : Inv s) : Inv (stopAll s) :=
  inv_discardCommand (inv_indicatorsOff (inv_driveCmd (fun _ => rfl) (inv_steerCmd (fun _ => rfl) h)))

theorem inv_undetHold {s : State} (h : Inv s) : Inv (undetHold s) :=
  inv_discardCommand (inv_driveCmd (fun _ => rfl) (inv_steerCmd (fun _ => rfl) h))

theorem inv_autoApply {s : State} (hm : s.mode = .auto) (h : Inv s) : Inv (autoApply s) := by
  unfold autoApply
  split
  · exact inv_driveCmd (absurd hm) (inv_steerCmd (absurd hm) (inv_discardCommand h))
  · exact h

theorem inv_writeSteer_manual {s : State} {p : Int} (hm : s.mode = .manual) (hp : manualMin ≤ p ∧ p ≤ manualMax)
    (h : Inv s) : Inv (writeSteer p s) :=
  { h with steering := .inr hp, undetermined := fun hu => nomatch hm.symm.trans hu }

theorem inv_writeDrive_manual {s : State} {p : Int} (hm : s.mode = .manual) (hp : manualMin ≤ p ∧ p ≤ manualMax)
    (hidle : s.dwellActive = false) (h : Inv s) : Inv (writeDrive p s) :=
  { h with
    drive := .inr hp
    dwellHoldsStop := fun hactive => nomatch hidle.symm.trans hactive
    undetermined := fun hu => nomatch hm.symm.trans hu }

theorem inv_manualSteer {s : State} (hm : s.mode = .manual) (h : Inv s) : Inv (manualSteer s) := by
  unfold manualSteer
  split
  · exact inv_writeSteer_manual hm (clamp_bounds _ (by decide)) (inv_sample .steer h)
  · exact h

theorem inv_manualDrive {s : State} (hm : s.mode = .manual) (h : Inv s) : Inv (manualDrive s) := by
  unfold manualDrive
  split
  · next hgo =>
    have hidle : s.dwellActive = false := by simp_all
    exact inv_writeDrive_manual hm (clamp_bounds _ (by decide)) hidle (inv_sample .throt h)
  · exact h

/-! ### The mode and the indicator -/

/-- The mode changes after the stop, which leaves what either active mode begins with (R152, R179). -/
theorem inv_transition {s : State} (m : ActiveMode) (h : Inv s) : Inv (transition m s) :=
  { inv_stopAll h with
    indicatorMode := fun _ => by simp [transition, stopAll_eq]
    undetermined := fun hu => absurd hu (toMode_ne_undetermined m)
    manual := fun _ => by simp [transition, stopAll_eq] }

theorem inv_arbEval {s : State} (h : Inv s) : Inv (arbEval s).2 := by
  cases hfresh : (s.ch.get .mode).fresh with
  | false => rwa [arbEval_stale hfresh]
  | true =>
    by_cases hm : (classify (s.ch.get .mode).latestWidthUs).toMode = s.mode
    · rw [arbEval_same hfresh hm]
      exact inv_sample .mode h
    · rw [arbEval_change hfresh hm]
      exact inv_transition _ (inv_sample .mode h)

theorem inv_handler {s : State} (h : Inv s) : Inv (handler s) := by
  unfold handler
  split
  · exact inv_undetHold h
  · next hm => exact inv_discardCommand (inv_manualDrive (by simpa using hm) (inv_manualSteer hm h))
  · next hm => exact inv_autoApply hm h

/-- IND.UPDATE concerns the indicators and their toggle phase alone (R29). -/
theorem indUpdate_frame (s : State) : indUpdate s =
    { s with indPos := (indUpdate s).indPos, indNeg := (indUpdate s).indNeg,
             blinkState := (indUpdate s).blinkState, blinkLastUs := (indUpdate s).blinkLastUs } := by
  apply State.ext <;> simp

theorem indUpdate_one_lit (s : State) : ¬ ((indUpdate s).indPos = true ∧ (indUpdate s).indNeg = true) := by
  simp only [indUpdate]
  split
  · simp
  · split <;> simp

theorem indUpdate_lit_shows_phase (s : State) :
    (indUpdate s).indPos = true ∨ (indUpdate s).indNeg = true → (indUpdate s).blinkState = true := by
  simp only [indUpdate]
  split
  · simp
  · split <;> simp

/-- IND.UPDATE runs in Manual mode only (R202). -/
theorem inv_indUpdate {s : State} (hm : s.mode = .manual) (h : Inv s) : Inv (indUpdate s) := by
  rw [indUpdate_frame]
  exact { h with
    indicatorMode := fun hne => absurd hm hne
    oneIndicator := indUpdate_one_lit s
    indicatorPhase := indUpdate_lit_shows_phase s }

theorem inv_indicatorPhase {s : State} (h : Inv s) : Inv (indicatorPhase s) := by
  unfold indicatorPhase
  split
  · next hm => exact inv_indUpdate hm h
  · exact h

theorem inv_cycle {s : State} (h : Inv s) : Inv (cycle s) := by
  cases hchange : (arbEval s).1 with
  | true =>
    rw [cycle_transition hchange]
    exact inv_dwellService (inv_arbEval h)
  | false =>
    rw [cycle_ordinary hchange]
    exact inv_indicatorPhase (inv_dwellService (inv_handler (inv_arbEval h)))

/-- Settles O58: every clause is read off the table of R30. -/
theorem invariantHoldsAtReset : Obligations.InvariantHoldsAtReset := fun _ pins hv => inv_resetOf hv pins

/-- Settles O59: taking the stimulus keeps the invariant, and so does each of the operations a step can run. -/
theorem everyStepKeepsTheInvariant : Obligations.EveryStepKeepsTheInvariant := by
  intro s t hinv h
  have hf := inv_fetch hinv
  have hcfg : (fetch s).2.cfg = s.cfg := by rw [fetch_snd]
  obtain ⟨-, ⟨-, rfl⟩ | ⟨d, -, rfl⟩ | ⟨_, v, c, -, -, rfl⟩ | ⟨-, rfl⟩ | ⟨-, ⟨-, rfl⟩ | ⟨-, rfl⟩⟩ | ⟨-, rfl⟩ |
    ⟨b, -, hb, rfl⟩⟩ := step_cases h
  · exact inv_resetEvent hf
  · exact inv_advance d hf
  · exact inv_pinEvent c (levelOf v) hf
  · exact inv_cycle hf
  · exact hf
  · exact inv_clearLine (hcfg ▸ inv_deliver_lineResult (lineText s) hf)
  · exact hf
  · exact inv_storeByte hb hf

end Sys2Proof.Machine

/-! ## Who writes what (R26, R29) -/

namespace Sys2Proof.Machine

/-! ### The command decoder and the environment -/

/-- A received byte concerns the line buffer, the command registers and the trace, and takes no command back. -/
theorem exec_decodeByte_frame {b : Byte} {s t : State} (h : exec (decodeByte b) s = .next t) :
    t = { s with buf := t.buf, len := t.len, cmdAngle := t.cmdAngle, cmdDir := t.cmdDir, cmdValid := t.cmdValid,
                 cmdPending := t.cmdPending, trace := t.trace } ∧
      (s.cmdPending = true → t.cmdPending = true) := by
  unfold decodeByte at h
  split at h
  · obtain rfl := Host.Outcome.next.inj ((execRxLf_eq s).symm.trans h)
    split
    · exact ⟨rfl, id⟩
    · exact ⟨rfl, fun _ => rfl⟩
  · split at h
    · cases h
      exact ⟨rfl, id⟩
    · cases h
      exact ⟨by apply State.ext <;> simp, fun hp => by simpa using hp⟩

/-- The capture unit sets its flag and never clears it (R29, R54). -/
theorem pinEvent_keeps_fresh {c : Channel} (v : Bool) (s : State) (h : (s.ch.get c).fresh = true) :
    ((pinEvent c v s).ch.get c).fresh = true := by
  rw [pinEvent_ch_get]
  split
  · exact h
  · split
    · exact h
    · split
      · rfl
      · exact h

/-! ### The main cycle -/

/-- The flags of other agents are at most cleared: a channel record changes in its fresh flag alone, and no command
becomes pending (R29, R54). -/
structure OnlyConsumes (s t : State) : Prop where
  channels : ∀ c, t.ch.get c = s.ch.get c ∨ t.ch.get c = { s.ch.get c with fresh := false }
  command : t.cmdPending = true → s.cmdPending = true

theorem OnlyConsumes.of_eq {s t : State} (hch : t.ch = s.ch) (hp : t.cmdPending = s.cmdPending) :
    OnlyConsumes s t := ⟨fun c => .inl (by rw [hch]), fun h => hp ▸ h⟩

theorem OnlyConsumes.trans {s t u : State} (h₁ : OnlyConsumes s t) (h₂ : OnlyConsumes t u) : OnlyConsumes s u where
  channels c := by
    rcases h₁.channels c with h | h <;> rcases h₂.channels c with h' | h' <;> rw [h', h]
    · exact .inl rfl
    · exact .inr rfl
    · exact .inr rfl
    · exact .inr rfl
  command h := h₁.command (h₂.command h)

/-- Dropping the command after operations that only consume is still consuming. -/
theorem OnlyConsumes.discardCommand {s t : State} (h : OnlyConsumes s t) : OnlyConsumes s (discardCommand t) :=
  ⟨h.channels, fun hp => nomatch hp⟩

theorem sample_onlyConsumes (c : Channel) (s : State) : OnlyConsumes s (sample c s).2 :=
  ⟨fun c' => sample_ch_get c c' s, id⟩

theorem stopAll_onlyConsumes (s : State) : OnlyConsumes s (stopAll s) :=
  (OnlyConsumes.of_eq (t := indicatorsOff (driveCmd .stop (steerCmd (mid s.cfg) s))) (by simp) (by simp)).discardCommand

theorem undetHold_onlyConsumes (s : State) : OnlyConsumes s (undetHold s) :=
  (OnlyConsumes.of_eq (t := driveCmd .stop (steerCmd (mid s.cfg) s)) (by simp) (by simp)).discardCommand

theorem autoApply_onlyConsumes (s : State) : OnlyConsumes s (autoApply s) := by
  unfold autoApply
  split
  · next hp => exact ⟨fun c => .inl (by simp), fun _ => hp⟩
  · exact .of_eq rfl rfl

theorem manualSteer_onlyConsumes (s : State) : OnlyConsumes s (manualSteer s) := by
  unfold manualSteer
  split
  · exact (sample_onlyConsumes .steer s).trans (.of_eq (writeSteer_ch _ _) (writeSteer_cmdPending _ _))
  · exact .of_eq rfl rfl

theorem manualDrive_onlyConsumes (s : State) : OnlyConsumes s (manualDrive s) := by
  unfold manualDrive
  split
  · exact (sample_onlyConsumes .throt s).trans (.of_eq (writeDrive_ch _ _) (writeDrive_cmdPending _ _))
  · exact .of_eq rfl rfl

theorem transition_onlyConsumes (m : ActiveMode) (s : State) : OnlyConsumes s (transition m s) :=
  (stopAll_onlyConsumes s).trans (.of_eq rfl rfl)

theorem arbEval_onlyConsumes (s : State) : OnlyConsumes s (arbEval s).2 := by
  cases hfresh : (s.ch.get .mode).fresh with
  | false =>
    rw [arbEval_stale hfresh]
    exact .of_eq rfl rfl
  | true =>
    by_cases hm : (classify (s.ch.get .mode).latestWidthUs).toMode = s.mode
    · rw [arbEval_same hfresh hm]
      exact sample_onlyConsumes .mode s
    · rw [arbEval_change hfresh hm]
      exact (sample_onlyConsumes .mode s).trans (transition_onlyConsumes _ _)

theorem handler_onlyConsumes (s : State) : OnlyConsumes s (handler s) := by
  unfold handler
  split
  · exact undetHold_onlyConsumes s
  · exact ((manualSteer_onlyConsumes s).trans (manualDrive_onlyConsumes _)).discardCommand
  · exact autoApply_onlyConsumes s

theorem cycle_onlyConsumes (s : State) : OnlyConsumes s (cycle s) := by
  have ha := arbEval_onlyConsumes s
  cases hchange : (arbEval s).1 with
  | true =>
    rw [cycle_transition hchange]
    exact ha.trans (.of_eq (dwellService_ch _) (dwellService_cmdPending _))
  | false =>
    rw [cycle_ordinary hchange]
    exact (ha.trans (handler_onlyConsumes _)).trans (.of_eq (by simp) (by simp))

/-- What a CYCLE may write (R29); that of the channels and the command it only consumes is `cycle_onlyConsumes`. -/
theorem cycle_frame (s : State) : cycle s =
    { s with ch := (cycle s).ch, mode := (cycle s).mode, cmdPending := (cycle s).cmdPending,
             curAngle := (cycle s).curAngle, curDir := (cycle s).curDir, prevDir := (cycle s).prevDir,
             steerOutUs := (cycle s).steerOutUs, driveOutUs := (cycle s).driveOutUs,
             dwellActive := (cycle s).dwellActive, dwellStartUs := (cycle s).dwellStartUs,
             pendingDir := (cycle s).pendingDir, indPos := (cycle s).indPos, indNeg := (cycle s).indNeg,
             blinkState := (cycle s).blinkState, blinkLastUs := (cycle s).blinkLastUs, trace := (cycle s).trace } := by
  apply State.ext <;> simp

/-- A step with an agenda is `exec` of the operation at its head. -/
theorem exec_of_step_cons {s t : State} {x : Stimulus} {rest : List Stimulus} (hagenda : s.agenda = x :: rest)
    (h : step s = .next t) : ∃ i, decodeStimulus x = .ok i ∧ exec i { s with agenda := rest } = .next t := by
  obtain ⟨-, i, hi, he⟩ := (step_next_iff s t).1 h
  rw [fetch_cons hagenda] at hi he
  exact ⟨i, hi, he⟩

/-- Settles O51: each agent's operations are updates of its own elements, and of a shared flag the other agent only
sets or only clears it. -/
theorem everyElementHasOneWriter : Obligations.EveryElementHasOneWriter := by
  intro s t x rest hagenda hstep
  obtain ⟨i, hi, he⟩ := exec_of_step_cons hagenda hstep
  refine ⟨?byte, ?pin, ?tick, ?cycle⟩
  case byte =>
    rintro b rfl
    cases hi
    exact exec_decodeByte_frame he
  case pin =>
    rintro code v c rfl hc
    simp only [decodeStimulus, decodeEvent, hc, Except.ok.injEq] at hi
    subst hi
    cases he
    exact ⟨pinEvent_frame c _ _, fun c' hne => pinEvent_ch_get_ne hne _ _,
      pinEvent_keeps_fresh _ { s with agenda := rest }⟩
  case tick =>
    rintro d rfl
    cases hi
    cases he
    rfl
  case cycle =>
    rintro rfl
    cases hi
    cases he
    have hconsumes := cycle_onlyConsumes { s with agenda := rest }
    refine ⟨cycle_frame _, fun c => ?_, hconsumes.command⟩
    rcases hconsumes.channels c with h | h <;> rw [h]
    · exact ⟨rfl, id⟩
    · exact ⟨rfl, fun hf => nomatch hf⟩

theorem execRxLf_cfg {s t : State} (h : execRxLf s = .next t) : t.cfg = s.cfg := by
  obtain rfl := Host.Outcome.next.inj ((execRxLf_eq s).symm.trans h)
  split <;> rfl

/-- Settles O52: no update of the state names the configuration. -/
theorem noOperationWritesTheConfiguration : Obligations.NoOperationWritesTheConfiguration := by
  intro i s t h
  cases i with
  | rxLf => exact execRxLf_cfg h
  | _ => cases h; simp

/-! ## RESET (R30) -/

/-- Settles O11: `resetEvent` is the table of R30, with the centre angle as the calibrated midpoint. -/
theorem resetGivesTheTableValues : Obligations.ResetGivesTheTableValues := by
  intro s hv
  refine ⟨resetEvent s, rfl, fun c => ?_, rfl, rfl, rfl, rfl, rfl, rfl, ?_, rfl, rfl, rfl, rfl, rfl, rfl, rfl, rfl, rfl,
    rfl, rfl, rfl⟩
  · cases c <;> exact ⟨rfl, rfl, rfl, rfl, rfl⟩
  · exact clamp_eq_max_min _ (valid_domain hv).le

/-- Settles O12: `resetEvent` keeps what the environment and the model's own bookkeeping hold. -/
theorem resetLeavesTheEnvironmentAlone : Obligations.ResetLeavesTheEnvironmentAlone := by
  intro s
  exact ⟨resetEvent s, rfl, resetEvent_cfg s, resetEvent_pwmIn s, resetEvent_trace s, resetEvent_agenda s,
    resetEvent_turn s⟩

/-! ## Code 3 (R10, R71) -/

theorem channelOfCode_eq_none_iff (c : BitVec 2) : channelOfCode c = none ↔ c = 3 := by
  revert c
  decide

theorem directionOfCode_eq_none_iff (d : BitVec 2) : directionOfCode d = none ↔ d = 3 := by
  revert d
  decide

/-- Settles O5: each of these words is refused exactly when its code names nothing. -/
theorem codeThreeAloneIsRefused : Obligations.CodeThreeAloneIsRefused := by
  refine ⟨fun c v => ?_, fun c v l => ?_, fun c => ?_, fun d => ?_, fun d => rfl⟩
  · rw [← channelOfCode_eq_none_iff]
    cases h : channelOfCode c <;> simp [decode, decodeStimulus, decodeEvent, h]
  · rw [← channelOfCode_eq_none_iff]
    cases h : channelOfCode c <;> simp [decode, h]
  · rw [← channelOfCode_eq_none_iff]
    cases h : channelOfCode c <;> simp [decode, decodePhase, h]
  · rw [← directionOfCode_eq_none_iff]
    cases h : directionOfCode d <;> simp [decode, decodePhase, h]

/-! ## The diagnostic taps (R27) -/

/-- Two's complement in 16 bits is exact for what fits 16 bits. -/
theorem toInt_ofInt_of_fits16 {a : Int} (hlo : -32768 ≤ a) (hhi : a ≤ 32767) : (BitVec.ofInt 16 a).toInt = a := by
  rw [BitVec.toInt_ofInt]
  exact Int.bmod_eq_of_le (by omega) (by omega)

/-- Settles O60: the codes are read off the three enumerations, and the invariant keeps the angle in the domain. -/
theorem diagnosticTapsCopyTheState : Obligations.DiagnosticTapsCopyTheState := by
  intro s
  refine ⟨?_, ?_, ?_, fun hinv hlo hhi => ?_⟩
  · cases h : s.mode <;> simp [State.dbgMode, modeCode, h]
  · cases h : s.cmdDir <;> simp [State.dbgCmdDir, directionCode, h]
  · cases h : s.cmdValid <;> simp [State.dbgCmdValid, levelCode, h]
  · obtain ⟨hmin, hmax⟩ := hinv.command
    exact toInt_ofInt_of_fits16 (hlo.trans hmin) (hmax.trans hhi)

end Sys2Proof.Machine

/-! ## The bytes of the line buffer from `len` on (R17) -/

namespace Sys2Proof.Machine

/-! ### The operations that do not look at the buffer -/

/-- The state with another line buffer. -/
def setBuf (buf : Vector Byte 32) (s : State) : State := { s with buf := buf }

/-- The operation neither reads nor writes the line buffer: it gives the same state whatever the buffer holds, and
hands the buffer on. -/
def IgnoresBuf (f : State → State) : Prop := ∀ buf s, f (setBuf buf s) = setBuf buf (f s)

theorem IgnoresBuf.comp {f g : State → State} (hg : IgnoresBuf g) (hf : IgnoresBuf f) :
    IgnoresBuf (fun s => g (f s)) := fun buf s => (congrArg g (hf buf s)).trans (hg buf (f s))

/-- A choice by a condition that does not look at the buffer. -/
theorem IgnoresBuf.ite {c : State → Prop} [DecidablePred c] {f g : State → State}
    (hc : ∀ buf s, c (setBuf buf s) ↔ c s) (hf : IgnoresBuf f) (hg : IgnoresBuf g) :
    IgnoresBuf (fun s => if c s then f s else g s) := by
  intro buf s
  by_cases h : c s
  · simp only [hc, h, if_true, hf buf s]
  · simp only [hc, h, if_false, hg buf s]

theorem id_ignoresBuf : IgnoresBuf (fun s => s) := fun _ _ => rfl

theorem sample_setBuf (c : Channel) (buf : Vector Byte 32) (s : State) :
    sample c (setBuf buf s) = ((sample c s).1, setBuf buf (sample c s).2) := rfl

theorem discardCommand_ignoresBuf : IgnoresBuf discardCommand := fun _ _ => rfl

theorem indicatorsOff_ignoresBuf : IgnoresBuf indicatorsOff := fun _ _ => rfl

theorem steerMid_ignoresBuf : IgnoresBuf (fun s => steerCmd (mid s.cfg) s) := fun _ _ => rfl

theorem driveCmd_ignoresBuf (d : Direction) : IgnoresBuf (driveCmd d) :=
  .ite (fun _ _ => .rfl) (fun _ _ => rfl) (.ite (fun _ _ => .rfl) (fun _ _ => rfl) (fun _ _ => rfl))

theorem dwellService_ignoresBuf : IgnoresBuf dwellService :=
  .ite (fun _ _ => .rfl) (fun _ _ => rfl) id_ignoresBuf

theorem stopAll_ignoresBuf : IgnoresBuf stopAll :=
  (discardCommand_ignoresBuf.comp indicatorsOff_ignoresBuf).comp ((driveCmd_ignoresBuf .stop).comp steerMid_ignoresBuf)

theorem undetHold_ignoresBuf : IgnoresBuf undetHold :=
  discardCommand_ignoresBuf.comp ((driveCmd_ignoresBuf .stop).comp steerMid_ignoresBuf)

theorem autoApply_ignoresBuf : IgnoresBuf autoApply :=
  .ite (fun _ _ => .rfl)
    (fun buf s => driveCmd_ignoresBuf s.cmdDir buf (steerCmd s.cmdAngle (discardCommand s))) id_ignoresBuf

theorem writeSteer_ignoresBuf (p : Int) : IgnoresBuf (writeSteer p) := fun _ _ => rfl

theorem writeDrive_ignoresBuf (p : Int) : IgnoresBuf (writeDrive p) := fun _ _ => rfl

theorem manualSteer_ignoresBuf : IgnoresBuf manualSteer :=
  .ite (fun _ _ => .rfl) (fun buf s => writeSteer_ignoresBuf _ buf (sample .steer s).2) id_ignoresBuf

theorem manualDrive_ignoresBuf : IgnoresBuf manualDrive :=
  .ite (fun _ _ => .rfl) (fun buf s => writeDrive_ignoresBuf _ buf (sample .throt s).2) id_ignoresBuf

theorem transition_ignoresBuf (m : ActiveMode) : IgnoresBuf (transition m) := by
  intro buf s
  simp only [transition, stopAll_ignoresBuf buf s]
  rfl

theorem arbEval_setBuf (buf : Vector Byte 32) (s : State) :
    arbEval (setBuf buf s) = ((arbEval s).1, setBuf buf (arbEval s).2) := by
  cases hfresh : (s.ch.get .mode).fresh with
  | false => rw [arbEval_stale hfresh, arbEval_stale (s := setBuf buf s) hfresh]
  | true =>
    by_cases hm : (classify (s.ch.get .mode).latestWidthUs).toMode = s.mode
    · rw [arbEval_same hfresh hm, arbEval_same (s := setBuf buf s) hfresh hm, sample_setBuf]
    · rw [arbEval_change hfresh hm, arbEval_change (s := setBuf buf s) hfresh hm, sample_setBuf,
        transition_ignoresBuf]
      rfl

theorem arbEval_ignoresBuf : IgnoresBuf (fun s => (arbEval s).2) :=
  fun buf s => congrArg Prod.snd (arbEval_setBuf buf s)

theorem blinkAdvance_ignoresBuf : IgnoresBuf blinkAdvance :=
  .ite (fun _ _ => .rfl) (fun _ _ => rfl) id_ignoresBuf

theorem indUpdate_ignoresBuf : IgnoresBuf indUpdate :=
  .ite (fun _ _ => .rfl)
    (.comp (g := fun u => { u with indPos := u.blinkState, indNeg := false }) (fun _ _ => rfl) blinkAdvance_ignoresBuf)
    (.ite (fun _ _ => .rfl)
      (.comp (g := fun u => { u with indNeg := u.blinkState, indPos := false }) (fun _ _ => rfl)
        blinkAdvance_ignoresBuf)
      indicatorsOff_ignoresBuf)

theorem handler_ignoresBuf : IgnoresBuf handler := by
  intro buf s
  have hmode : (setBuf buf s).mode = s.mode := rfl
  unfold handler
  rw [hmode]
  cases s.mode with
  | undetermined => exact undetHold_ignoresBuf buf s
  | manual => exact (discardCommand_ignoresBuf.comp (manualDrive_ignoresBuf.comp manualSteer_ignoresBuf)) buf s
  | auto => exact autoApply_ignoresBuf buf s

theorem indicatorPhase_ignoresBuf : IgnoresBuf indicatorPhase :=
  .ite (fun _ _ => .rfl) indUpdate_ignoresBuf id_ignoresBuf

theorem cycle_ignoresBuf : IgnoresBuf cycle :=
  .ite (fun buf s => by rw [arbEval_setBuf]) (dwellService_ignoresBuf.comp arbEval_ignoresBuf)
    (indicatorPhase_ignoresBuf.comp (dwellService_ignoresBuf.comp (handler_ignoresBuf.comp arbEval_ignoresBuf)))

theorem pinEvent_ignoresBuf (c : Channel) (v : Bool) : IgnoresBuf (pinEvent c v) := by
  intro buf s
  rw [pinEvent_frame, pinEvent_frame c v s, pinEvent_pwmIn, pinEvent_pwmIn, pinEvent_ch, pinEvent_ch]
  rfl

theorem fetch_setBuf (buf : Vector Byte 32) (s : State) :
    fetch (setBuf buf s) = ((fetch s).1, setBuf buf (fetch s).2) := by
  cases hagenda : s.agenda with
  | nil =>
    rw [fetch_nil hagenda, fetch_nil (s := setBuf buf s) hagenda]
    rfl
  | cons x rest =>
    rw [fetch_cons hagenda, fetch_cons (s := setBuf buf s) hagenda]
    rfl

/-! ### Another buffer with the same bytes before `len` -/

/-- `buf` holds the bytes of the line that `s` has so far; from `len` on it may hold any bytes. -/
def HoldsLine (buf : Vector Byte 32) (s : State) : Prop :=
  ∀ j : Fin 32, j.val < s.len.val → buf[j.val] = s.buf[j.val]

theorem holdsLine_self (s : State) : HoldsLine s.buf s := fun _ _ => rfl

theorem holdsLine_of_empty (buf : Vector Byte 32) {s : State} (h : s.len = 0) : HoldsLine buf s :=
  fun j hj => absurd hj (by simp [h])

theorem HoldsLine.congr {buf : Vector Byte 32} {s t : State} (h : HoldsLine buf s) (hlen : t.len = s.len)
    (hbuf : t.buf = s.buf) : HoldsLine buf t := fun j hj => hbuf ▸ h j (hlen ▸ hj)

/-- The line read from the buffer ends at `len` (R51). -/
theorem HoldsLine.lineText_setBuf {buf : Vector Byte 32} {s : State} (h : HoldsLine buf s) :
    lineText (setBuf buf s) = lineText s := by
  refine List.ext_getElem (by rw [lineText_length, lineText_length]; rfl) fun j _ hj => ?_
  rw [lineText_length] at hj
  simpa [lineText, setBuf] using h ⟨j, hj.trans s.len.isLt⟩ hj

/-- The two runs of one operation: it goes on from the other buffer too, and again only bytes from `len` on differ. -/
def StaysBlind (i : Instr) (buf : Vector Byte 32) (s t : State) : Prop :=
  ∃ buf', exec i (setBuf buf s) = .next (setBuf buf' t) ∧ HoldsLine buf' t

/-- The byte is stored at the same place of both buffers, or both lines are dropped (R123). -/
theorem storeByte_staysBlind {buf : Vector Byte 32} {s : State} (b : Byte) (h : HoldsLine buf s) :
    StaysBlind (.rxData b) buf s (storeByte b s) := by
  by_cases hroom : s.len.val < 31
  · refine ⟨buf.set s.len.val b s.len.isLt, ?_, fun j hj => ?_⟩
    · show Host.Outcome.next (storeByte b (setBuf buf s)) = _
      rw [storeByte_room b hroom, storeByte_room (s := setBuf buf s) b hroom]
      rfl
    · rw [storeByte_room b hroom] at hj ⊢
      rw [Vector.getElem_set, Vector.getElem_set]
      split
      · rfl
      · next hne => exact h j (by simp at hj; omega)
  · have hfull : s.len.val = 31 := by have := s.len.isLt; omega
    refine ⟨buf, ?_, holdsLine_of_empty buf (by rw [storeByte_full b hfull])⟩
    show Host.Outcome.next (storeByte b (setBuf buf s)) = _
    rw [storeByte_full b hfull, storeByte_full (s := setBuf buf s) b hfull]
    rfl

/-- The same line is decoded, and the buffer is emptied (R121, R124). -/
theorem rxLf_staysBlind {buf : Vector Byte 32} {s t : State} (h : HoldsLine buf s) (he : execRxLf s = .next t) :
    StaysBlind .rxLf buf s t := by
  have he' : exec .rxLf (setBuf buf s) = _ := execRxLf_eq (setBuf buf s)
  obtain rfl := Host.Outcome.next.inj ((execRxLf_eq s).symm.trans he)
  rw [h.lineText_setBuf] at he'
  by_cases hempty : s.len = 0
  · exact ⟨buf, by rw [he', if_pos hempty, if_pos (show (setBuf buf s).len = 0 from hempty)],
      holdsLine_of_empty buf (by rw [if_pos hempty, hempty])⟩
  · refine ⟨buf, ?_, holdsLine_of_empty buf (by rw [if_neg hempty]; rfl)⟩
    rw [he', if_neg hempty, if_neg (show (setBuf buf s).len ≠ 0 from hempty)]
    rfl

/-- The operations that a stimulus can stand for (R70 to R72). -/
theorem decodeStimulus_cases {x : Stimulus} {i : Instr} (h : decodeStimulus x = .ok i) :
    i = .reset ∨ (∃ d, i = .tick d) ∨ (∃ c v, i = .pin c v) ∨ i = .cycle ∨ i = .rxLf ∨ i = .rxCr ∨
      ∃ b, i = .rxData b := by
  cases x with
  | byte b =>
    simp only [decodeStimulus, decodeByte, Except.ok.injEq] at h
    split at h
    · simp [← h]
    · split at h <;> simp [← h]
  | event e =>
    cases e with
    | reset => cases h; simp
    | tick d => cases h; simp
    | cycle => cases h; simp
    | pin c v =>
      simp only [decodeStimulus, decodeEvent] at h
      split at h
      · cases h; simp
      · cases h

/-- Whatever a stimulus makes the core do, it does the same with the other buffer. -/
theorem exec_staysBlind {x : Stimulus} {i : Instr} {buf : Vector Byte 32} {s t : State} (h : HoldsLine buf s)
    (hi : decodeStimulus x = .ok i) (he : exec i s = .next t) : StaysBlind i buf s t := by
  obtain rfl | ⟨d, rfl⟩ | ⟨c, v, rfl⟩ | rfl | rfl | rfl | ⟨b, rfl⟩ := decodeStimulus_cases hi
  · cases he
    exact ⟨_, rfl, holdsLine_self _⟩
  · cases he
    exact ⟨buf, rfl, h⟩
  · cases he
    exact ⟨buf, congrArg _ (pinEvent_ignoresBuf c v buf s), h.congr (by simp) (by simp)⟩
  · cases he
    exact ⟨buf, congrArg _ (cycle_ignoresBuf buf s), h.congr (by simp) (by simp)⟩
  · exact rxLf_staysBlind h he
  · cases he
    exact ⟨buf, rfl, h⟩
  · cases he
    exact storeByte_staysBlind b h

/-- No operation refuses (R230). -/
theorem exec_ne_refused (i : Instr) (s : State) (r : Refusal) : exec i s ≠ .refused r := by
  cases i with
  | rxLf =>
    intro h
    exact nomatch (execRxLf_eq s).symm.trans h
  | _ => nofun

/-- What a step refuses is seen on the configuration and the stimulus alone (R230). -/
theorem step_refused_iff (s : State) (r : Refusal) : step s = .refused r ↔
    (∃ e, configProblem s.cfg = some e ∧ r = .badConfig e) ∨
      (s.cfg.Valid ∧ ∃ e, decodeStimulus (fetch s).1 = .error e ∧ r = .badStimulus e) := by
  unfold step Config.Valid
  split
  · next hc => simp [hc, eq_comm]
  · next hc =>
    split
    · next hd => simp [hc, hd, eq_comm]
    · next hd => simp [hc, hd, exec_ne_refused]

/-- Settles O53: a step takes the stimulus and runs one operation, neither of which looks beyond `len`. -/
theorem bytesBeyondLenAreNeverRead : Obligations.BytesBeyondLenAreNeverRead := by
  intro s other hline
  change (∀ t, step s = .next t → ∃ t', step (setBuf other s) = .next t' ∧ _) ∧
    ∀ r, step s = .refused r → step (setBuf other s) = .refused r
  refine ⟨fun t h => ?_, fun r h => ?_⟩
  · obtain ⟨hv, i, hi, he⟩ := (step_next_iff s t).1 h
    have hfetch : HoldsLine other (fetch s).2 := HoldsLine.congr hline (by rw [fetch_snd]) (by rw [fetch_snd])
    obtain ⟨buf', hgo, hline'⟩ := exec_staysBlind hfetch hi he
    refine ⟨setBuf buf' t, (step_next_iff _ _).2 ⟨hv, i, ?_, ?_⟩, rfl, hline'⟩ <;> rw [fetch_setBuf]
    · exact hi
    · exact hgo
  · rw [step_refused_iff] at h ⊢
    rw [fetch_setBuf]
    exact h

end Sys2Proof.Machine

/-! ## Words and operations: the encoding and what the decoder answers (R70 to R83) -/

namespace Sys2Proof

/-- The round trips of Laws/PerInstr.lean, for all operations at once. -/
theorem decode_encode (i : Instr) : Laws.RoundTrip.Statement i :=
  match i with
  | .reset => Laws.RoundTrip.reset
  | .tick d => Laws.RoundTrip.tick d
  | .pin c v => Laws.RoundTrip.pin c v
  | .pinRise c => Laws.RoundTrip.pinRise c
  | .pinFall c => Laws.RoundTrip.pinFall c
  | .pinSame c v => Laws.RoundTrip.pinSame c v
  | .cycle => Laws.RoundTrip.cycle
  | .rxLf => Laws.RoundTrip.rxLf
  | .rxCr => Laws.RoundTrip.rxCr
  | .rxData b => Laws.RoundTrip.rxData b
  | .lineEmpty => Laws.RoundTrip.lineEmpty
  | .lineOversize bytes => Laws.RoundTrip.lineOversize bytes
  | .lineNoMark s => Laws.RoundTrip.lineNoMark s
  | .lineBadInt s => Laws.RoundTrip.lineBadInt s
  | .cmdF v => Laws.RoundTrip.cmdF v
  | .cmdB v => Laws.RoundTrip.cmdB v
  | .cmdS v => Laws.RoundTrip.cmdS v
  | .cmdX v c => Laws.RoundTrip.cmdX v c
  | .sample c => Laws.RoundTrip.sample c
  | .arbEval => Laws.RoundTrip.arbEval
  | .undetHold => Laws.RoundTrip.undetHold
  | .txMode m => Laws.RoundTrip.txMode m
  | .steerCmd angle => Laws.RoundTrip.steerCmd angle
  | .driveCmd d => Laws.RoundTrip.driveCmd d
  | .dwellService => Laws.RoundTrip.dwellService
  | .stopAll => Laws.RoundTrip.stopAll
  | .autoApply => Laws.RoundTrip.autoApply
  | .manualSteer => Laws.RoundTrip.manualSteer
  | .manualDrive => Laws.RoundTrip.manualDrive
  | .indUpdate => Laws.RoundTrip.indUpdate

/-- Settles O1: one round trip per constructor, of which the frames are the ones with content. -/
theorem decodeOfEncodeIsTheOperation : Obligations.DecodeOfEncodeIsTheOperation := decode_encode

/-- Settles O3: the decoder is run on the twelve words. -/
theorem specWordsDecodeAsWritten : Obligations.SpecWordsDecodeAsWritten := by
  unfold Obligations.SpecWordsDecodeAsWritten
  decide

/-- Settles O4: LF and CR are the bytes of value 10 and 13. -/
theorem byteClassIsByValueAlone : Obligations.ByteClassIsByValueAlone := by
  intro b
  have hlf : b = chLF ↔ b.toNat = 10 := BitVec.toNat_inj.symm
  have hcr : b = chCR ↔ b.toNat = 13 := BitVec.toNat_inj.symm
  simp only [decode, decodeStimulus, decodeByte, hlf, hcr]

/-! ### Markers (R75) -/

/-- The recursion of `find` byte by byte: the marker stands at the head, or it is looked for in the tail. -/
theorem find_cons (a b x : Byte) (l : List Byte) :
    find a b (x :: l) = if x = a ∧ l[0]? = some b then some 0 else (find a b l).map (· + 1) := by
  cases l <;> simp [find]

theorem find_eq_some_iff (a b : Byte) (s : List Byte) (i : Nat) : find a b s = some i ↔
    (s[i]? = some a ∧ s[i + 1]? = some b ∧ ∀ j < i, ¬ (s[j]? = some a ∧ s[j + 1]? = some b)) := by
  induction s generalizing i with
  | nil => simp [find]
  | cons x l ih =>
    rw [find_cons]
    by_cases hhead : x = a ∧ l[0]? = some b
    · rw [if_pos hhead]
      cases i with
      | zero => simpa using hhead
      | succ i =>
        refine iff_of_false (by simp) fun ⟨_, _, hbefore⟩ => hbefore 0 (by omega) ?_
        simpa using hhead
    · rw [if_neg hhead]
      cases i with
      | zero =>
        refine iff_of_false (by simp) fun ⟨ha, hb, _⟩ => hhead ?_
        simpa using And.intro ha hb
      | succ i =>
        have hshift : (find a b l).map (· + 1) = some (i + 1) ↔ find a b l = some i := by simp
        simp only [hshift, ih, Nat.forall_lt_succ_left, List.getElem?_cons_zero, List.getElem?_cons_succ,
          Option.some.injEq, hhead, not_false_eq_true, true_and]

/-- Settles O6: by induction on the bytes, the marker at the head or the index in the tail shifted by one. -/
theorem markerIsTheLeftmostOccurrence : Obligations.MarkerIsTheLeftmostOccurrence := find_eq_some_iff

/-! ### The integer field (R76) -/

theorem isDigit_iff (b : Byte) : isDigit b = true ↔ 0x30 ≤ b.toNat ∧ b.toNat ≤ 0x39 := by
  simp [isDigit]

/-- The value of a run of digits is Mathlib's value of its digits, which reads the least significant first. -/
theorem digitsValue_eq_ofDigits (ds : List Byte) :
    digitsValue ds = Nat.ofDigits 10 (ds.map (fun b => b.toNat - 0x30)).reverse := by
  rw [Nat.ofDigits_eq_foldr, List.foldr_reverse, List.foldl_map]
  simp [digitsValue, add_comm]

theorem noDigitAtHead_iff (s : List Byte) :
    Machine.NoDigitAtHead s ↔ ∀ b, s.head? = some b → isDigit b = false := by
  simp only [Machine.NoDigitAtHead, ← isDigit_iff, Bool.not_eq_true]

theorem parseInt_plus (s : List Byte) : parseInt (chPlus :: s) = (parseDigits s).map (fun n : Nat => (n : Int)) := by
  rw [parseInt, if_neg (by decide), if_pos rfl]

theorem parseInt_minus (s : List Byte) :
    parseInt (chMinus :: s) = (parseDigits s).map (fun n : Nat => -(n : Int)) := by
  rw [parseInt, if_pos rfl]

/-- Without a sign at the head the integer is the run of digits there, if there is one. -/
theorem parseInt_unsigned {s : List Byte} (hplus : s.head? ≠ some chPlus) (hminus : s.head? ≠ some chMinus) :
    parseInt s = (parseDigits s).map (fun n : Nat => (n : Int)) := by
  cases s with
  | nil => rfl
  | cons b s => rw [parseInt, if_neg (by simpa using hminus), if_neg (by simpa using hplus)]

/-- Settles O7: each of the three forms by the lemma on the run of digits behind the sign. -/
theorem integerFieldIsExactDecimal : Obligations.IntegerFieldIsExactDecimal := by
  refine ⟨fun ds rest hne hdigits hrest => ?_, fun rest hrest => ?_⟩
  · have hd : ∀ b ∈ ds, isDigit b = true := fun b hb => (isDigit_iff b).2 (hdigits b hb)
    have hr := (noDigitAtHead_iff rest).1 hrest
    have hrun := parseDigits_run ds rest hne hd hr
    rw [← digitsValue_eq_ofDigits]
    refine ⟨parseInt_run ds rest hne hd hr, ?_, ?_⟩
    · exact (parseInt_plus _).trans (by rw [hrun, Option.map_some])
    · exact (parseInt_minus _).trans (by rw [hrun, Option.map_some])
  · have hnone := parseDigits_none rest ((noDigitAtHead_iff rest).1 hrest)
    refine ⟨?_, ?_, fun hplus hminus => ?_⟩
    · exact (parseInt_plus _).trans (by rw [hnone, Option.map_none])
    · exact (parseInt_minus _).trans (by rw [hnone, Option.map_none])
    · rw [parseInt_unsigned hplus hminus, hnone, Option.map_none]

/-! ### The room an integer takes in its line (R74, R76) -/

/-- A digit or a sign: what the text of an integer is made of (R76). -/
def IsIntegerByte (b : Byte) : Prop := isDigit b = true ∨ b = chPlus ∨ b = chMinus

theorem not_isIntegerByte_D : ¬ IsIntegerByte chD := by unfold IsIntegerByte; decide

theorem not_isIntegerByte_colon : ¬ IsIntegerByte chColon := by unfold IsIntegerByte; decide

theorem digitsValue_lt {ds : List Byte} (h : ∀ b ∈ ds, isDigit b = true) : digitsValue ds < 10 ^ ds.length := by
  rw [digitsValue_eq_ofDigits]
  have hlt : ∀ x ∈ (ds.map (fun b => b.toNat - 0x30)).reverse, x < 10 := by
    intro x hx
    obtain ⟨b, hb, rfl⟩ := List.mem_map.1 (List.mem_reverse.1 hx)
    have := (isDigit_iff b).1 (h b hb)
    omega
  simpa using Nat.ofDigits_lt_base_pow_length (by omega) hlt

theorem intFits_mono {j k : Nat} {v : Int} (hjk : j ≤ k) (h : intFits j v = true) : intFits k v = true := by
  simp only [intFits, Bool.and_eq_true, decide_eq_true_eq] at h ⊢
  have hhi : (10 : Int) ^ j ≤ 10 ^ k := pow_le_pow_right₀ (by omega) hjk
  have hlo : (10 : Int) ^ (j - 1) ≤ 10 ^ (k - 1) := pow_le_pow_right₀ (by omega) (by omega)
  omega

/-- An unsigned run of `k` digits. -/
theorem intFits_natCast {k n : Nat} (h : n < 10 ^ k) : intFits k (n : Int) = true := by
  have hhi : (n : Int) < 10 ^ k := by exact_mod_cast h
  have hlo : (0 : Int) < 10 ^ (k - 1) := by positivity
  simp only [intFits, Bool.and_eq_true, decide_eq_true_eq]
  omega

/-- `k` digits behind a minus sign. -/
theorem intFits_neg_natCast {k n : Nat} (h : n < 10 ^ k) : intFits (k + 1) (-(n : Int)) = true := by
  have hlo : (n : Int) < 10 ^ k := by exact_mod_cast h
  have hhi : (0 : Int) < 10 ^ (k + 1) := by positivity
  simp only [intFits, Bool.and_eq_true, decide_eq_true_eq, Nat.add_sub_cancel]
  omega

/-- The run of digits that `parseDigits` reads, and the bound its length gives. -/
theorem parseDigits_some {s : List Byte} {n : Nat} (h : parseDigits s = some n) :
    ∃ ds rest, s = ds ++ rest ∧ (∀ b ∈ ds, isDigit b = true) ∧ n < 10 ^ ds.length := by
  have hdigits : ∀ b ∈ s.takeWhile isDigit, isDigit b = true := fun b hb => List.mem_takeWhile_imp hb
  refine ⟨s.takeWhile isDigit, s.dropWhile isDigit, List.takeWhile_append_dropWhile.symm, hdigits, ?_⟩
  unfold parseDigits at h
  split at h
  · cases h
  · obtain rfl := Option.some.inj h
    exact digitsValue_lt hdigits

/-- The text that `parseInt` reads an integer from, which the integer fits (R76). -/
theorem parseInt_some {s : List Byte} {v : Int} (h : parseInt s = some v) :
    ∃ text rest, s = text ++ rest ∧ (∀ b ∈ text, IsIntegerByte b) ∧ intFits text.length v = true := by
  cases s with
  | nil => cases h
  | cons b s =>
    rw [parseInt] at h
    split at h
    · next hminus =>
      obtain ⟨n, hn, rfl⟩ := Option.map_eq_some_iff.1 h
      obtain ⟨ds, rest, rfl, hdigits, hlt⟩ := parseDigits_some hn
      refine ⟨b :: ds, rest, rfl, ?_, intFits_neg_natCast hlt⟩
      exact List.forall_mem_cons.2 ⟨.inr (.inr hminus), fun x hx => .inl (hdigits x hx)⟩
    · split at h
      · next hplus =>
        obtain ⟨n, hn, rfl⟩ := Option.map_eq_some_iff.1 h
        obtain ⟨ds, rest, rfl, hdigits, hlt⟩ := parseDigits_some hn
        refine ⟨b :: ds, rest, rfl, ?_, intFits_mono (Nat.le_succ _) (intFits_natCast hlt)⟩
        exact List.forall_mem_cons.2 ⟨.inr (.inl hplus), fun x hx => .inl (hdigits x hx)⟩
      · obtain ⟨n, hn, rfl⟩ := Option.map_eq_some_iff.1 h
        obtain ⟨ds, rest, hs, hdigits, hlt⟩ := parseDigits_some hn
        exact ⟨ds, rest, hs, fun x hx => .inl (hdigits x hx), intFits_natCast hlt⟩

theorem index_ne_of_byte_ne {s : List Byte} {i j : Nat} {x y : Byte} (hi : s[i]? = some x) (hj : s[j]? = some y)
    (hxy : x ≠ y) : i ≠ j := by
  rintro rfl
  exact hxy (Option.some.inj (hi.symm.trans hj))

/-- The markers and the integer's text do not overlap, so four bytes of the line are not the integer's; nor is the
direction byte, unless it is the `E` of `E:`. -/
theorem integerText_room {s text rest : List Byte} {e d : Nat} (he : findE s = some e) (hd : findD s = some d)
    (hs : s.drop (e + 2) = text ++ rest) (htext : ∀ b ∈ text, IsIntegerByte b) :
    text.length + 4 ≤ s.length ∧ ∀ b, s[d + 2]? = some b → b ≠ chE → text.length + 5 ≤ s.length := by
  obtain ⟨heE, heColon, -⟩ := (find_eq_some_iff _ _ _ _).1 he
  obtain ⟨hdD, hdColon, -⟩ := (find_eq_some_iff _ _ _ _).1 hd
  have houtside : ∀ {i x}, s[i]? = some x → ¬ IsIntegerByte x → i < e + 2 ∨ e + 2 + text.length ≤ i := by
    intro i x hi hx
    by_contra hin
    have hx' : (text ++ rest)[i - (e + 2)]? = some x := by
      rw [← hs, List.getElem?_drop, ← hi]
      congr 1
      omega
    rw [List.getElem?_append_left (by omega)] at hx'
    exact hx (htext x (List.mem_of_getElem? hx'))
  have hDout := houtside hdD not_isIntegerByte_D
  have hColonOut := houtside hdColon not_isIntegerByte_colon
  have hDE : d ≠ e := index_ne_of_byte_ne hdD heE (by decide)
  have hDColon : d ≠ e + 1 := index_ne_of_byte_ne hdD heColon (by decide)
  have hColonE : d + 1 ≠ e := index_ne_of_byte_ne hdColon heE (by decide)
  have hdlt : d + 1 < s.length := (List.getElem?_eq_some_iff.1 hdColon).1
  have helt : e + 1 < s.length := (List.getElem?_eq_some_iff.1 heColon).1
  have hlen : s.length - (e + 2) = text.length + rest.length := by
    rw [← List.length_drop, hs, List.length_append]
  refine ⟨by omega, fun b hb hbE => ?_⟩
  have hbe : d + 2 ≠ e := index_ne_of_byte_ne hb heE hbE
  have hblt : d + 2 < s.length := (List.getElem?_eq_some_iff.1 hb).1
  omega

/-- The integer of a line with both markers leaves room for them and for the direction byte (R74, R76). -/
theorem intFits_of_line {s : List Byte} {e d : Nat} {v : Int} (hlen : s.length ≤ lineMax) (he : findE s = some e)
    (hd : findD s = some d) (hv : parseInt (s.drop (e + 2)) = some v) :
    intFits 27 v = true ∧ ∀ b, s[d + 2]? = some b → b ≠ chE → intFits 26 v = true := by
  obtain ⟨text, rest, hs, htext, hfits⟩ := parseInt_some hv
  obtain ⟨hroom, hroomDir⟩ := integerText_room he hd hs htext
  simp only [lineMax] at hlen
  refine ⟨intFits_mono (by omega) hfits, fun b hb hbE => intFits_mono ?_ hfits⟩
  have := hroomDir b hb hbE
  omega

/-! ### What the decoder answers (R72, R74, R78) -/

/-- CMD.X, whose bound on the integer depends on its direction byte (R133). -/
theorem cmdX_wf {v : Int} {c : Option Byte} (h27 : intFits 27 v = true)
    (h26 : ∀ b, c = some b → b ≠ chE → intFits 26 v = true) (hc : ∀ b, c = some b → isOtherDirByte b = true) :
    (Instr.cmdX v c).wf = true := by
  cases c with
  | none => exact h27
  | some b =>
    have hfits : intFits (if b = chE then 27 else 26) v = true := by
      split
      · exact h27
      · next hbE => exact h26 b rfl hbE
    simp [Instr.wf, hfits, hc b rfl]

/-- Every class of a completed line is well-formed, in the test order of R78. -/
theorem decodeLine_wf {s : List Byte} (hs : isFrameText s = true) : (decodeLine s).wf = true := by
  have hframe := hs
  simp only [isFrameText, Bool.and_eq_true, decide_eq_true_eq, List.all_eq_true] at hframe
  obtain ⟨⟨-, hlen⟩, hdata⟩ := hframe
  unfold decodeLine
  split
  · next e d he hd =>
    split
    · next hnone => simp [Instr.wf, hs, he, hd, hnone]
    · next v hv =>
      obtain ⟨h27, h26⟩ := intFits_of_line hlen he hd hv
      split
      · next hF => exact h26 _ hF (by decide)
      · next hF =>
        split
        · next hB => exact h26 _ hB (by decide)
        · next hB =>
          split
          · next hS => exact h26 _ hS (by decide)
          · next hS =>
            refine cmdX_wf h27 h26 fun b hb => ?_
            rw [hb, Option.some.injEq] at hF hB hS
            simp [isOtherDirByte, hdata b (List.mem_of_getElem? hb), hF, hB, hS]
  · next hmissing =>
    have : findE s = none ∨ findD s = none := by
      cases he : findE s with
      | none => exact .inl rfl
      | some e => exact .inr (Option.eq_none_iff_forall_ne_some.2 fun d hd => hmissing e d he hd)
    simpa [Instr.wf, hs] using this

/-- Between carriage returns left out and the first line feed there are data bytes only (R72, R74). -/
theorem isDataByte_of_mem_frame {bytes : List Byte} {b : Byte}
    (h : b ∈ (bytes.filter (· ≠ chCR)).takeWhile (· ≠ chLF)) : isDataByte b = true := by
  have hlf := List.mem_takeWhile_imp h
  have hcr := (List.mem_filter.1 ((List.takeWhile_prefix _).subset h)).2
  simp only [isDataByte, Bool.and_eq_true]
  exact ⟨hlf, hcr⟩

theorem decodeFrame_wf {bytes : List Byte} {i : Instr} (h : decodeFrame bytes = .ok i) : i.wf = true := by
  have hdata : ∀ b ∈ (bytes.filter (· ≠ chCR)).takeWhile (· ≠ chLF), isDataByte b = true :=
    fun b hb => isDataByte_of_mem_frame hb
  simp only [decodeFrame] at h
  generalize (bytes.filter (· ≠ chCR)).takeWhile (· ≠ chLF) = s at h hdata
  split at h
  · split at h
    · next hcap =>
      cases h
      simpa [Instr.wf, hcap] using hdata
    · cases h
  · split at h
    · cases h
      rfl
    · next hne =>
      split at h
      · next hmax =>
        cases h
        have hpos : 1 ≤ s.length := List.length_pos_iff.2 hne
        exact decodeLine_wf (by simpa [isFrameText, hpos, hmax] using hdata)
      · cases h
  · cases h

theorem decodeByte_wf (b : Byte) : (decodeByte b).wf = true := by
  unfold decodeByte
  split
  · rfl
  · split
    · rfl
    · next hlf hcr => simp [Instr.wf, isDataByte, hlf, hcr]

theorem decodeStimulus_wf {x : Stimulus} {i : Instr} (h : decodeStimulus x = .ok i) : i.wf = true := by
  cases x with
  | byte b =>
    cases h
    exact decodeByte_wf b
  | event e =>
    cases e with
    | pin c v =>
      simp only [decodeStimulus, decodeEvent] at h
      split at h <;> cases h
      rfl
    | _ =>
      cases h
      rfl

theorem decodeEdge_wf (c : Channel) (v line : Bool) : (decodeEdge c v line).wf = true := by
  unfold decodeEdge
  split
  · rfl
  · split <;> rfl

theorem decodePhase_wf {p : PhaseWord} {i : Instr} (h : decodePhase p = .ok i) : i.wf = true := by
  cases p with
  | sample _ | txMode _ | driveCmd _ =>
    simp only [decodePhase] at h
    split at h <;> cases h
    rfl
  | _ =>
    cases h
    rfl

/-- Settles O2: only BYTE and FRAME operations have a restricted operand; in a frame it is the length of the line that
bounds the integer. -/
theorem decodedOperationsAreWellFormed : Obligations.DecodedOperationsAreWellFormed := by
  intro w i h
  cases w with
  | stimulus x => exact decodeStimulus_wf h
  | frame bytes => exact decodeFrame_wf h
  | phase p => exact decodePhase_wf h
  | edge c v line =>
    simp only [decode] at h
    split at h <;> cases h
    exact decodeEdge_wf _ _ _

end Sys2Proof

/-! ## Lines received, delivered and sent (R80, R120 to R133, R156) -/

namespace Sys2Proof.Machine

/-! ### The line feed as the operation of its line (R78, R124) -/

/-- With both markers and an integer the line's class is that of its direction byte (R78). -/
theorem decodeLine_of_fields {text : List Byte} {e d : Nat} {v : Int} (he : findE text = some e)
    (hd : findD text = some d) (hv : parseInt (text.drop (e + 2)) = some v) :
    decodeLine text = if text[d + 2]? = some chF then .cmdF v
      else if text[d + 2]? = some chB then .cmdB v
      else if text[d + 2]? = some chS then .cmdS v
      else .cmdX v text[d + 2]? := by
  simp only [decodeLine, he, hd, hv]

theorem lineResult_of_fields {g : Config} {text : List Byte} {e d : Nat} {v : Int} (he : findE text = some e)
    (hd : findD text = some d) (hv : parseInt (text.drop (e + 2)) = some v) :
    lineResult g text = (clampDomain g v, dirOf text (d + 2), true) := by
  simp only [lineResult, he, hd, hv]

/-- With both markers and no integer the line is LINE.BADINT, and its result the fallback (R126). -/
theorem badInt_of_no_integer {g : Config} {text : List Byte} {e d : Nat} (he : findE text = some e)
    (hd : findD text = some d) (hv : parseInt (text.drop (e + 2)) = none) :
    decodeLine text = .lineBadInt text ∧ lineResult g text = fallback g := by
  constructor
  · simp only [decodeLine, he, hd, hv]
  · simp only [lineResult, he, hd, hv]

/-- A line that lacks a marker is LINE.NOMARK, and its result the fallback (R127). -/
theorem noMark_of_missing {g : Config} {text : List Byte} (h : findE text = none ∨ findD text = none) :
    decodeLine text = .lineNoMark text ∧ lineResult g text = fallback g := by
  cases he : findE text with
  | none => cases hd : findD text <;> exact ⟨by simp only [decodeLine, he, hd], by simp only [lineResult, he, hd]⟩
  | some e =>
    have hd : findD text = none := h.resolve_left (by simp [he])
    exact ⟨by simp only [decodeLine, he, hd], by simp only [lineResult, he, hd]⟩

/-- The FRAME operation that a line decodes to delivers the line's result. -/
theorem exec_decodeLine (text : List Byte) (s : State) :
    exec (decodeLine text) s = .next (deliver (lineResult s.cfg text) s) := by
  cases he : findE text with
  | none =>
    obtain ⟨hdecode, hresult⟩ := noMark_of_missing (g := s.cfg) (.inl he)
    rw [hdecode, hresult]
    exact rfl
  | some e =>
    cases hd : findD text with
    | none =>
      obtain ⟨hdecode, hresult⟩ := noMark_of_missing (g := s.cfg) (.inr hd)
      rw [hdecode, hresult]
      exact rfl
    | some d =>
      cases hv : parseInt (text.drop (e + 2)) with
      | none =>
        obtain ⟨hdecode, hresult⟩ := badInt_of_no_integer (g := s.cfg) he hd hv
        rw [hdecode, hresult]
        exact rfl
      | some v =>
        rw [decodeLine_of_fields he hd hv, lineResult_of_fields he hd hv, dirOf]
        split
        · exact rfl
        · split
          · exact rfl
          · split <;> exact rfl

theorem execRxLf_line {s : State} (h : s.len ≠ 0) :
    execRxLf s = .next (clearLine (deliver (lineResult s.cfg (lineText s)) s)) := by
  rw [execRxLf_eq, if_neg h]

/-- Settles O24: RX.LF and the FRAME operation deliver the same result. -/
theorem lineFeedPerformsTheFrameOperation : Obligations.LineFeedPerformsTheFrameOperation := by
  intro s hlen
  have hne : s.len ≠ 0 := fun h => by simp [h] at hlen
  exact ⟨_, exec_decodeLine (lineText s) s, execRxLf_line hne⟩

/-! ### The announcement (R80, R156) -/

/-- TX.MODE records one line, and its bytes with TX_EOL are what is sent of it. -/
theorem txMode_txData (m : ActiveMode) (s : State) :
    (txMode m s).txData = s.txData ++ announcement m ++ s.cfg.txEol := by
  simp [State.txData, txBytesOf]

/-- Settles O32: the two texts are those of `announcement`. -/
theorem announcementSendsTheExactLine : Obligations.AnnouncementSendsTheExactLine := fun s =>
  ⟨⟨txMode .auto s, rfl, rfl, rfl, txMode_txData .auto s⟩,
    ⟨txMode .manual s, rfl, rfl, rfl, txMode_txData .manual s⟩⟩

/-! ### A line received byte by byte (R120 to R123) -/

theorem step_byte {s : State} {b : Byte} {rest : List Stimulus} (hv : s.cfg.Valid)
    (hagenda : s.agenda = .byte b :: rest) : step s = exec (decodeByte b) { s with agenda := rest } :=
  (stepRunsTheDecodedOperation s hv).1 _ _ _ hagenda rfl

theorem decodeByte_data {b : Byte} (h : isDataByte b = true) : decodeByte b = .rxData b := by
  obtain ⟨hlf, hcr⟩ := dataByte_ne h
  rw [decodeByte, if_neg hlf, if_neg hcr]

/-- A data byte that fits the buffer is added to the line there and is taken off the agenda; nothing else happens. -/
theorem step_dataByte {s : State} {b : Byte} {rest : List Stimulus} (hv : s.cfg.Valid) (hb : isDataByte b = true)
    (hroom : s.len.val < 31) (hagenda : s.agenda = .byte b :: rest) :
    ∃ u, step s = .next u ∧ lineText u = lineText s ++ [b] ∧ u.len.val = s.len.val + 1 ∧
      u = { s with buf := u.buf, len := u.len, agenda := rest } := by
  refine ⟨storeByte b { s with agenda := rest }, ?_, ?_, ?_, storeByte_frame b _⟩
  · rw [step_byte hv hagenda, decodeByte_data hb]
    rfl
  · exact lineText_storeByte (s := { s with agenda := rest }) b hroom
  · rw [storeByte_room (s := { s with agenda := rest }) b hroom]

/-- So with any number of data bytes that fit. -/
theorem run_dataBytes {bytes : List Byte} {rest : List Stimulus} {s : State} (k : Nat) (hv : s.cfg.Valid)
    (hdata : ∀ b ∈ bytes, isDataByte b = true) (hroom : s.len.val + bytes.length ≤ 31)
    (hagenda : s.agenda = bytes.map .byte ++ rest) :
    ∃ u : State, Host.Core.run Sys2Proof.core (bytes.length + k) s = Host.Core.run Sys2Proof.core k u ∧
      lineText u = lineText s ++ bytes ∧ u = { s with buf := u.buf, len := u.len, agenda := rest } := by
  induction bytes generalizing s with
  | nil => exact ⟨s, by rw [List.length_nil, Nat.zero_add], by simp, State.ext_iff.2 (by simp [hagenda])⟩
  | cons b bytes ih =>
    obtain ⟨hb, hbytes⟩ := List.forall_mem_cons.1 hdata
    rw [List.map_cons, List.cons_append] at hagenda
    rw [List.length_cons] at hroom
    obtain ⟨u, hstep, htext, hlen, hu⟩ := step_dataByte hv hb (by omega) hagenda
    obtain ⟨w, hrun, htext', hw⟩ := ih (s := u) (by rw [hu]; exact hv) hbytes (by omega) (by rw [hu])
    refine ⟨w, ?_, ?_, ?_⟩
    · rw [List.length_cons, Nat.add_right_comm, core_run_next hstep, hrun]
    · rw [htext', htext, List.append_assoc, List.singleton_append]
    · rw [hu] at hw
      exact hw

/-- LF, or CR and LF, on a line delivers what the line says and empties the buffer (R121, R122). -/
theorem run_ending {ending : List Byte} {rest : List Stimulus} {s : State} (hlen : s.len ≠ 0)
    (hv : s.cfg.Valid) (hending : ending ∈ [[0x0A], [0x0D, 0x0A]]) (hagenda : s.agenda = ending.map .byte ++ rest) :
    Host.Core.run Sys2Proof.core ending.length s =
      .next (clearLine (deliver (lineResult s.cfg (lineText s)) { s with agenda := rest })) := by
  have hlf : ∀ {t : State}, t.cfg.Valid → t.len ≠ 0 → t.agenda = .byte chLF :: rest →
      Host.Core.run Sys2Proof.core 1 t =
        .next (clearLine (deliver (lineResult t.cfg (lineText t)) { t with agenda := rest })) := by
    intro t hv hlen hagenda
    have hstep := step_byte hv hagenda
    rw [core_run_next (hstep.trans (execRxLf_line (s := { t with agenda := rest }) hlen))]
    exact run_zero _ _
  simp only [List.mem_cons, List.not_mem_nil, or_false] at hending
  obtain rfl | rfl := hending
  · exact hlf hv hlen hagenda
  · have hstep : step s = .next { s with agenda := .byte chLF :: rest } := step_byte hv hagenda
    exact (core_run_next hstep).trans (hlf hv hlen rfl)

/-! ### What a line of the grammar says (R73, R75 to R77) -/

/-- `E:`, a text without the letter `D` that an integer is read from, `D:` and a direction byte. -/
theorem lineResult_command {g : Config} {text : List Byte} {b : Byte} {v : Int} (htext : ∀ x ∈ text, x ≠ chD)
    (hv : parseInt (text ++ [chD, chColon, b]) = some v) :
    lineResult g ([chE, chColon] ++ text ++ [chD, chColon, b]) = (clampDomain g v, dirOf [b] 0, true) := by
  have he : findE ([chE, chColon] ++ text ++ [chD, chColon, b]) = some 0 := find_cons_pos _ _ _
  have hprefix : ∀ x ∈ [chE, chColon] ++ text, x ≠ chD := by
    simp only [List.forall_mem_append, List.forall_mem_cons]
    exact ⟨⟨by decide, by decide, by simp⟩, htext⟩
  have hd : findD ([chE, chColon] ++ text ++ [chD, chColon, b]) = some ([chE, chColon] ++ text).length := by
    rw [findD, find_append_left _ _ _ _ hprefix, find_cons_pos, Option.map_some, Nat.zero_add]
  have hdir : ([chE, chColon] ++ text ++ [chD, chColon, b])[([chE, chColon] ++ text).length + 2]? = some b := by
    rw [List.getElem?_append_right (by omega), Nat.add_sub_cancel_left]
    rfl
  have hdrop : ([chE, chColon] ++ text ++ [chD, chColon, b]).drop (0 + 2) = text ++ [chD, chColon, b] := by simp
  simp only [lineResult, he, hd, hdrop, hv, dirOf, hdir]
  rfl

/-- The integer of the grammar: an optional sign and digits, up to a byte that is none (R73, R76). -/
theorem parseInt_sign_digits {sign digits rest : List Byte} (hsign : sign ∈ [[], [0x2B], [0x2D]])
    (hne : digits ≠ []) (hdigits : ∀ b ∈ digits, 0x30 ≤ b.toNat ∧ b.toNat ≤ 0x39) (hrest : NoDigitAtHead rest)
    {n : Nat} (hn : n = Nat.ofDigits 10 (digits.map (fun b => b.toNat - 0x30)).reverse) :
    parseInt (sign ++ (digits ++ rest)) = some (if sign = [0x2D] then -(n : Int) else (n : Int)) := by
  obtain ⟨hnone, hplus, hminus⟩ := integerFieldIsExactDecimal.1 digits rest hne hdigits hrest
  simp only [List.mem_cons, List.not_mem_nil, or_false] at hsign
  subst hn
  obtain rfl | rfl | rfl := hsign
  · exact hnone
  · exact hplus
  · exact hminus

/-- The line of the grammar says its integer, clamped, and its direction (R124, R130 to R132). -/
theorem lineResult_grammar {g : Config} {sign digits sep : List Byte} {b : Byte} {n : Nat}
    (hsign : sign ∈ [[], [0x2B], [0x2D]]) (hne : digits ≠ [])
    (hdigits : ∀ b ∈ digits, 0x30 ≤ b.toNat ∧ b.toNat ≤ 0x39) (hsep : sep ∈ [[], [0x20]])
    (hn : n = Nat.ofDigits 10 (digits.map (fun b => b.toNat - 0x30)).reverse) :
    lineResult g ([0x45, 0x3A] ++ sign ++ digits ++ sep ++ [0x44, 0x3A, b]) =
      (clampDomain g (if sign = [0x2D] then -(n : Int) else (n : Int)), dirOf [b] 0, true) := by
  have htext : ∀ x ∈ sign ++ (digits ++ sep), x ≠ chD := by
    have hD : ∀ x ∈ digits, x ≠ chD := fun x hx => isDigit_ne_of_not ((isDigit_iff x).2 (hdigits x hx)) (by decide)
    have hs : ∀ l ∈ [[], [(0x2B : Byte)], [0x2D]], ∀ x ∈ l, x ≠ chD := by decide
    have hp : ∀ l ∈ [[], [(0x20 : Byte)]], ∀ x ∈ l, x ≠ chD := by decide
    simp only [List.forall_mem_append]
    exact ⟨hs sign hsign, hD, hp sep hsep⟩
  have hhead : NoDigitAtHead (sep ++ [chD, chColon, b]) := by
    rw [noDigitAtHead_iff]
    simp only [List.mem_cons, List.not_mem_nil, or_false] at hsep
    obtain rfl | rfl := hsep
    · rintro _ ⟨⟩
      rfl
    · rintro _ ⟨⟩
      rfl
  have hint := parseInt_sign_digits hsign hne hdigits hhead hn
  rw [← lineResult_command htext (by simpa using hint)]
  simp [chE, chColon, chD]

/-- The bytes of the grammar's line are data bytes (R72, R73). -/
theorem grammar_isDataByte {sign digits sep : List Byte} {b : Byte} (hsign : sign ∈ [[], [0x2B], [0x2D]])
    (hdigits : ∀ b ∈ digits, 0x30 ≤ b.toNat ∧ b.toNat ≤ 0x39) (hsep : sep ∈ [[], [0x20]]) (hb : isDataByte b = true) :
    ∀ x ∈ [0x45, 0x3A] ++ sign ++ digits ++ sep ++ [0x44, 0x3A, b], isDataByte x = true := by
  have hdata : ∀ x ∈ digits, isDataByte x = true := fun x hx => isDataByte_of_digit ((isDigit_iff x).2 (hdigits x hx))
  have hs : ∀ l ∈ [[], [(0x2B : Byte)], [0x2D]], ∀ x ∈ l, isDataByte x = true := by decide
  have hp : ∀ l ∈ [[], [(0x20 : Byte)]], ∀ x ∈ l, isDataByte x = true := by decide
  obtain ⟨hE, hColon, hD⟩ : isDataByte 0x45 = true ∧ isDataByte 0x3A = true ∧ isDataByte 0x44 = true := by decide
  simp only [List.forall_mem_append, List.forall_mem_cons]
  exact ⟨⟨⟨⟨⟨hE, hColon, by simp⟩, hs sign hsign⟩, hdata⟩, hp sep hsep⟩, hD, hColon, hb, by simp⟩

/-- The three direction bytes of the grammar (R73, R77). -/
theorem directionByte_dirOf : ∀ p ∈ [((0x46 : Byte), Direction.forward), (0x42, .backward), (0x53, .stop)],
    isDataByte p.1 = true ∧ dirOf [p.1] 0 = p.2 := by decide

/-- Settles O29: the data bytes fill the buffer one by one, and the ending delivers what the line says. -/
theorem streamedLineDeliversItsCommand : Obligations.StreamedLineDeliversItsCommand := by
  intro s sign digits sep ending line rest hv hlen hsign hne hdigits hsep hending p hp hline hmax hagenda
  obtain ⟨hpData, hpDir⟩ := directionByte_dirOf p hp
  subst hline
  rw [List.map_append, List.append_assoc] at hagenda
  obtain ⟨u, hrun, htext, hu⟩ := run_dataBytes ending.length hv
    (grammar_isDataByte hsign hdigits hsep hpData) (by omega) hagenda
  rw [lineText_empty (Fin.ext hlen), List.nil_append] at htext
  have hulen : u.len ≠ 0 := fun h => by simpa [lineText_empty h] using htext.symm
  have hresult := lineResult_grammar (g := s.cfg) (b := p.1) hsign hne hdigits hsep rfl
  rw [hpDir] at hresult
  obtain ⟨buf, len, rfl⟩ : ∃ buf len, u = { s with buf := buf, len := len, agenda := ending.map .byte ++ rest } :=
    ⟨_, _, hu⟩
  have hgo := hrun.trans (run_ending hulen hv hending rfl)
  rw [htext, ← List.length_append] at hgo
  simp only [hresult] at hgo
  exact ⟨_, _, hgo, rfl, clamp_eq_max_min _ (valid_domain hv).le, rfl, rfl, rfl, rfl, rfl, rfl, rfl⟩

end Sys2Proof.Machine

/-! ## Pulse capture (R100 to R107) -/

namespace Sys2Proof.Machine

/-! ### Edges and samples as updates of one channel's record (R101 to R103, R107) -/

theorem setChannel_ch_get (c : Channel) (k : PulseChannel) (s : State) : (setChannel c k s).ch.get c = k :=
  PerChannel.get_set _ _ _

theorem setChannel_ch_get_ne {c c' : Channel} (hne : c' ≠ c) (k : PulseChannel) (s : State) :
    (setChannel c k s).ch.get c' = s.ch.get c' := PerChannel.get_set_ne _ _ hne

/-- Settles O14: `pinRise` replaces the time and the armed flag in the record of its channel. -/
theorem risingEdgeStoresTheTime : Obligations.RisingEdgeStoresTheTime := by
  intro c s
  refine ⟨setChannel c { s.ch.get c with riseTsUs := s.nowUs, armed := true } s, rfl, ?_⟩
  rw [setChannel_ch_get]
  exact ⟨rfl, rfl, rfl, fun c' hne => setChannel_ch_get_ne hne _ _, rfl⟩

/-- Settles O17: `sample` replaces the fresh flag in the record of its channel. -/
theorem sampleReadsAndClearsFresh : Obligations.SampleReadsAndClearsFresh := by
  intro c s
  refine ⟨setChannel c { s.ch.get c with fresh := false } s, rfl, rfl, ?_⟩
  rw [setChannel_ch_get]
  exact ⟨rfl, rfl, fun c' hne => setChannel_ch_get_ne hne _ _, rfl⟩

/-- The time between two readings of the counter: their difference, or what is left of it after one wrap (R106). -/
theorem elapsed_toNat_cases (a b : Us) : (elapsed a b).toNat =
    if b.toNat ≤ a.toNat then a.toNat - b.toNat else a.toNat + 4294967296 - b.toNat := by
  have ha : a.toNat < 4294967296 := a.isLt
  rw [elapsed_toNat]
  split <;> omega

/-- Settles O15: the armed case replaces the width and the fresh flag, and the width is `elapsed` across the wrap. -/
theorem fallingEdgeMeasuresTheWidth : Obligations.FallingEdgeMeasuresTheWidth := by
  refine fun c s => ⟨fun harmed => ⟨pinFall c s, rfl, ?_⟩, fun hunarmed => congrArg _ (pinFall_unarmed hunarmed)⟩
  rw [pinFall_armed harmed, setChannel_ch_get]
  exact ⟨elapsed_toNat_cases _ _, rfl, rfl, fun c' hne => setChannel_ch_get_ne hne _ _, rfl⟩

/-! ### PIN selects its case by the stored level (R100) -/

/-- The case that the stored level selects, on the channel with the new level stored, is what PIN does. -/
theorem exec_edge_eq_pinEvent (c : Channel) (v : Bool) (s : State) :
    exec (if v = (s.ch.get c).line then .pinSame c v else if v = true then .pinRise c else .pinFall c)
      { s with pwmIn := s.pwmIn.set c v, ch := s.ch.set c { s.ch.get c with line := v } } =
      .next (pinEvent c v s) := by
  unfold pinEvent
  by_cases hsame : v = (s.ch.get c).line
  · have hkept : s.ch.set c { s.ch.get c with line := v } = s.ch := by rw [hsame]; exact PerChannel.set_get _ _
    simp only [if_pos hsame, hkept]
    rfl
  · simp only [if_neg hsame]
    cases v <;> rfl

/-- Settles O16: the selected case is `pinEvent`, whose frame is known. -/
theorem pinPerformsTheCaseOfItsEdge : Obligations.PinPerformsTheCaseOfItsEdge := by
  intro c v s
  refine ⟨pinEvent c v s, rfl, exec_edge_eq_pinEvent c v s, pinEvent_line c v s, ?_, fun c' hne => ⟨?_, ?_⟩,
    pinEvent_frame c v s⟩
  · rw [pinEvent_pwmIn, PerChannel.get_set]
  · exact pinEvent_ch_get_ne hne v s
  · rw [pinEvent_pwmIn, PerChannel.get_set_ne _ _ hne]

/-- Settles O20: PIN.SAME, the empty line and the carriage return are idle, and so is a line feed on an empty line. -/
theorem operationsWithoutEffectChangeNothing : Obligations.OperationsWithoutEffectChangeNothing := by
  refine fun s => ⟨rfl, rfl, fun _ _ => rfl, fun hlen => ?_⟩
  show execRxLf s = .next s
  rw [execRxLf_eq, if_pos (Fin.ext hlen)]

/-! ### Independence of the channels (R105) -/

/-- An event on another channel makes no difference to the record that an event leaves: it depends on the channel's own
record and on the time alone. -/
theorem pinEvent_ch_get_independent {c c' : Channel} (hne : c ≠ c') (v v' : Bool) (s : State) :
    (pinEvent c v (pinEvent c' v' s)).ch.get c = (pinEvent c v s).ch.get c := by
  rw [pinEvent_ch_get, pinEvent_ch_get_ne hne, pinEvent_nowUs, pinEvent_ch_get]

theorem pinEvent_comm {c c' : Channel} (hne : c ≠ c') (v v' : Bool) (s : State) :
    pinEvent c' v' (pinEvent c v s) = pinEvent c v (pinEvent c' v' s) := by
  have hch : (pinEvent c' v' (pinEvent c v s)).ch = (pinEvent c v (pinEvent c' v' s)).ch := by
    refine PerChannel.ext_get fun d => ?_
    by_cases hc : d = c
    · subst hc
      rw [pinEvent_ch_get_ne hne, pinEvent_ch_get_independent hne]
    · by_cases hc' : d = c'
      · subst hc'
        rw [pinEvent_ch_get_independent hne.symm, pinEvent_ch_get_ne hne.symm]
      · simp only [pinEvent_ch_get_ne hc, pinEvent_ch_get_ne hc']
  have hpins : (pinEvent c' v' (pinEvent c v s)).pwmIn = (pinEvent c v (pinEvent c' v' s)).pwmIn := by
    simp only [pinEvent_pwmIn, PerChannel.set_comm _ _ _ hne]
  exact State.ext_iff.2 (by simp only [hch, hpins]; simp)

/-- Settles O18: both orders are two PIN events in a row, which commute. -/
theorem edgesOfDifferentChannelsCommute : Obligations.EdgesOfDifferentChannelsCommute :=
  fun _ _ v v' s hne => congrArg Host.Outcome.next (pinEvent_comm hne v v' s)

/-! ### A whole pulse (R104, R106, R213) -/

theorem pinEvent_rise_ch_get {c : Channel} {s : State} (hlow : (s.ch.get c).line = false) :
    (pinEvent c true s).ch.get c = { s.ch.get c with line := true, riseTsUs := s.nowUs, armed := true } := by
  simp [pinEvent_ch_get, hlow]

theorem pinEvent_fall_ch_get {c : Channel} {s : State} (hhigh : (s.ch.get c).line = true)
    (harmed : (s.ch.get c).armed = true) : (pinEvent c false s).ch.get c =
      { s.ch.get c with line := false, latestWidthUs := elapsed s.nowUs (s.ch.get c).riseTsUs, fresh := true } := by
  simp [pinEvent_ch_get, hhigh, harmed]

/-- The time that a TICK of `w` adds to the counter. -/
theorem elapsed_advance (w : Nat) (a : Us) : elapsed (a + BitVec.ofNat tsW w) a = BitVec.ofNat tsW w :=
  add_sub_cancel_left _ _

/-- The record that a high phase of `w` microseconds leaves in its channel. -/
theorem pulse_ch_get {c : Channel} {s : State} (w : Nat) (hlow : (s.ch.get c).line = false) :
    (pinEvent c false (advance w (pinEvent c true s))).ch.get c =
      { latestWidthUs := BitVec.ofNat tsW w, riseTsUs := s.nowUs, fresh := true, armed := true, line := false } := by
  have hrise : (advance w (pinEvent c true s)).ch.get c =
      { s.ch.get c with line := true, riseTsUs := s.nowUs, armed := true } := pinEvent_rise_ch_get hlow
  rw [pinEvent_fall_ch_get (by rw [hrise]) (by rw [hrise]), hrise, advance_nowUs, pinEvent_nowUs, elapsed_advance]

/-- Settles O19: the two events and the TICK leave the record of the pulse, and touch no other channel. -/
theorem highPulseIsCapturedAsItsLength : Obligations.HighPulseIsCapturedAsItsLength := by
  intro c w s hlow
  have hget := pulse_ch_get w hlow
  refine ⟨pinEvent c false (advance w (pinEvent c true s)), rfl, ?_, ?_, ?_, ?_, ?_, fun c' hne => ?_, ?_⟩
  · rw [hget]
    exact BitVec.toNat_ofNat w tsW
  · rw [hget]
  · rw [hget]
  · rw [hget]
  · rw [hget]
  · rw [pinEvent_ch_get_ne hne, advance_ch, pinEvent_ch_get_ne hne]
  · apply State.ext <;> simp

end Sys2Proof.Machine

/-! ## The line decoder's operations (R123 to R133) -/

namespace Sys2Proof.Machine

/-! ### One data byte (R123) -/

theorem storeByte_buf_stored {s : State} (b : Byte) (hroom : s.len.val < 31) :
    (storeByte b s).buf[s.len.val] = b := by
  rw [storeByte_room b hroom]
  exact Vector.getElem_set_self s.len.isLt

theorem storeByte_buf_kept {s : State} (b : Byte) (hroom : s.len.val < 31) {j : Fin 32} (hj : j ≠ s.len) :
    (storeByte b s).buf[j.val] = s.buf[j.val] := by
  rw [storeByte_room b hroom]
  exact Vector.getElem_set_ne s.len.isLt j.isLt (fun h => hj (Fin.ext h.symm))

/-- Settles O21: `storeByte` with room and on a full buffer. -/
theorem dataByteIsStoredOrEmptiesTheBuffer : Obligations.DataByteIsStoredOrEmptiesTheBuffer := by
  refine fun b s => ⟨fun hroom => ?_, fun hfull => ?_⟩
  · have hlen : (storeByte b s).len.val = s.len.val + 1 := by rw [storeByte_room b hroom]
    exact ⟨storeByte b s, rfl, hlen, lineText_storeByte b hroom, storeByte_buf_stored b hroom,
      fun j hj => storeByte_buf_kept b hroom hj, storeByte_frame b s⟩
  · exact ⟨{ s with len := 0 }, congrArg Host.Outcome.next (storeByte_full b hfull), rfl, rfl⟩

/-- Settles O22: both operations are `clearLine` there. -/
theorem oversizeDropsTheLine : Obligations.OversizeDropsTheLine :=
  fun s => ⟨fun _ => ⟨clearLine s, rfl, rfl, rfl⟩,
    fun b hfull => congrArg Host.Outcome.next (storeByte_full b hfull)⟩

/-! ### A run of data bytes (R123, R277) -/

/-- What is left of a run of data bytes: its last `n mod 32`. -/
def lineTail (bytes : List Byte) : List Byte := bytes.drop (bytes.length - bytes.length % 32)

theorem lineTail_length (bytes : List Byte) : (lineTail bytes).length = bytes.length % 32 := by
  rw [lineTail, List.length_drop]
  omega

theorem lineTail_append_room {bytes : List Byte} (b : Byte) (h : bytes.length % 32 < 31) :
    lineTail (bytes ++ [b]) = lineTail bytes ++ [b] := by
  have hcut : (bytes ++ [b]).length - (bytes ++ [b]).length % 32 = bytes.length - bytes.length % 32 := by
    rw [List.length_append, List.length_singleton]
    omega
  rw [lineTail, hcut, List.drop_append_of_le_length (Nat.sub_le _ _), lineTail]

theorem lineTail_append_full {bytes : List Byte} (b : Byte) (h : bytes.length % 32 = 31) :
    lineTail (bytes ++ [b]) = [] := by
  apply List.eq_nil_of_length_eq_zero
  rw [lineTail_length, List.length_append, List.length_singleton]
  omega

/-- One more data byte keeps the buffer equal to the tail of what was received. -/
theorem lineText_storeByte_tail {s : State} {bytes : List Byte} (b : Byte) (h : lineText s = lineTail bytes) :
    lineText (storeByte b s) = lineTail (bytes ++ [b]) := by
  have hlen : s.len.val = bytes.length % 32 := by rw [← lineText_length, h, lineTail_length]
  by_cases hroom : s.len.val < 31
  · rw [lineText_storeByte b hroom, lineTail_append_room b (hlen ▸ hroom), h]
  · have hfull : s.len.val = 31 := by omega
    rw [storeByte_full b hfull, lineTail_append_full b (hlen ▸ hfull), lineText_empty rfl]

/-- A run of data bytes on an empty buffer leaves its tail there and touches nothing but the buffer. -/
theorem execAll_dataBytes (bytes : List Byte) {s : State} (hempty : s.len = 0) :
    ∃ t, execAll (bytes.map .rxData) s = .next t ∧ lineText t = lineTail bytes ∧
      t = { s with buf := t.buf, len := t.len } := by
  induction bytes using List.reverseRecOn with
  | nil => exact ⟨s, rfl, lineText_empty hempty, rfl⟩
  | append_singleton bytes b ih =>
    obtain ⟨t, hrun, htext, hframe⟩ := ih
    refine ⟨storeByte b t, ?_, lineText_storeByte_tail b htext, ?_⟩
    · rw [List.map_append, execAll_append hrun]
      rfl
    · rw [storeByte_frame b t, hframe]

/-- Settles O23, by induction on the run from its end. -/
theorem longRunKeepsItsTail : Obligations.LongRunKeepsItsTail := by
  intro bytes s hempty
  obtain ⟨t, hrun, htext, hframe⟩ := execAll_dataBytes bytes (Fin.ext hempty)
  exact ⟨t, hrun, htext, by rw [← lineText_length, htext, lineTail_length], hframe⟩

/-! ### The completed line (R124 to R129) -/

/-- A line that lacks a marker or the integer has the fallback as its result (R126, R127). -/
theorem lineResult_fallback {g : Config} {text : List Byte} (h : findE text = none ∨ findD text = none ∨
    ∃ e, findE text = some e ∧ parseInt (text.drop (e + 2)) = none) : lineResult g text = fallback g := by
  obtain hE | hD | ⟨e, he, hv⟩ := h
  · exact (noMark_of_missing (.inl hE)).2
  · exact (noMark_of_missing (.inr hD)).2
  · cases hd : findD text with
    | none => exact (noMark_of_missing (.inr hd)).2
    | some d => exact (badInt_of_no_integer he hd hv).2

/-- Settles O25: the fields of a line fix its result, and `deliver` writes that result. -/
theorem completedLineDeliversItsCommand : Obligations.CompletedLineDeliversItsCommand := by
  intro s hvalid hlen
  refine ⟨_, execRxLf_line (Fin.pos_iff_ne_zero.1 hlen), rfl, rfl, fun e d v he hd hv => ?_, fun hmissing => ?_, rfl, rfl⟩
  · simp only [lineResult_of_fields he hd hv]
    exact ⟨clamp_eq_max_min v (valid_domain hvalid).le, rfl, rfl⟩
  · simp only [lineResult_fallback hmissing]
    exact ⟨rfl, rfl, rfl⟩

/-- The flag in the result of a line (R129). -/
theorem lineResult_valid_iff (g : Config) (text : List Byte) : (lineResult g text).2.2 = true ↔
    (findD text).isSome = true ∧
      ∃ e, findE text = some e ∧ (parseInt (text.drop (e + 2))).isSome = true := by
  constructor
  · intro hvalid
    have hfound : ¬ (findE text = none ∨ findD text = none ∨
        ∃ e, findE text = some e ∧ parseInt (text.drop (e + 2)) = none) := by
      intro hmissing
      rw [lineResult_fallback hmissing] at hvalid
      cases hvalid
    push Not at hfound
    obtain ⟨hE, hD, hint⟩ := hfound
    obtain ⟨e, he⟩ := Option.ne_none_iff_exists'.1 hE
    exact ⟨Option.isSome_iff_ne_none.2 hD, e, he, Option.isSome_iff_ne_none.2 (hint e he)⟩
  · rintro ⟨hD, e, he, hint⟩
    obtain ⟨d, hd⟩ := Option.isSome_iff_exists.1 hD
    obtain ⟨v, hv⟩ := Option.isSome_iff_exists.1 hint
    rw [lineResult_of_fields he hd hv]

/-- Settles O26: the flag that RX.LF writes is that of the line's result. -/
theorem validityFlagMeansMarkersAndInteger : Obligations.ValidityFlagMeansMarkersAndInteger := by
  intro s hlen
  exact ⟨_, execRxLf_line (Fin.pos_iff_ne_zero.1 hlen), lineResult_valid_iff s.cfg (lineText s)⟩

/-! ### The FRAME operations on their own (R126 to R133) -/

/-- Settles O27: both deliver `fallback`, whose angle is the floor of the midpoint. -/
theorem badFramesDeliverTheFallback : Obligations.BadFramesDeliverTheFallback := by
  intro frame s
  obtain ⟨hlow, hhigh⟩ := mid_bounds s.cfg
  exact ⟨deliver (fallback s.cfg) s, rfl, rfl, hlow, hhigh, rfl, rfl, rfl, rfl, rfl⟩

/-- The four command operations deliver the clamped angle with their direction (R130 to R133). -/
theorem exec_command (v : Int) (c : Option Byte) (s : State) :
    ∀ p ∈ [(Instr.cmdF v, Direction.forward), (.cmdB v, .backward), (.cmdS v, .stop), (.cmdX v c, .stop)],
      exec p.1 s = .next (deliver (clampDomain s.cfg v, p.2, true) s) := by
  simp only [List.forall_mem_cons]
  exact ⟨rfl, rfl, rfl, rfl, by simp⟩

/-- Settles O28: what `deliver` writes of the clamped angle, the direction and the true flag. -/
theorem commandFramesDeliverAngleAndDirection : Obligations.CommandFramesDeliverAngleAndDirection := by
  intro v c s hvalid p hp
  exact ⟨_, exec_command v c s p hp, clamp_eq_max_min v (valid_domain hvalid).le, rfl, rfl, rfl, rfl, rfl⟩

end Sys2Proof.Machine

/-! ## The mode arbiter (R150 to R158, R262) -/

namespace Sys2Proof.Machine

/-! ### The arbiter's branches (R150 to R152) -/

theorem classify_eq (w : Us) : classify w = if w.toNat ≤ 1500 then .auto else .manual := by
  simp [classify, usInt, modeThreshold]

theorem classify_toMode (w : Us) : (classify w).toMode = if w.toNat ≤ 1500 then .auto else .manual := by
  rw [classify_eq]
  split <;> rfl

/-- ARB.EVAL changes the mode exactly on a fresh width of another mode. -/
theorem arbEval_fst_iff_fresh_other (s : State) : (arbEval s).1 = true ↔
    (s.ch.get .mode).fresh = true ∧ (classify (s.ch.get .mode).latestWidthUs).toMode ≠ s.mode := by
  cases hfresh : (s.ch.get .mode).fresh with
  | false => simp [arbEval_stale hfresh]
  | true =>
    by_cases hm : (classify (s.ch.get .mode).latestWidthUs).toMode = s.mode
    · simp [arbEval_same hfresh hm, hm]
    · simp [arbEval_change hfresh hm, hm]

theorem exec_arbEval_of_eq {s : State} {r : Bool × State} (h : arbEval s = r) : exec .arbEval s = .next r.2 :=
  h ▸ rfl

/-- No phase of a CYCLE but the arbiter writes the mode. -/
theorem cycle_mode (s : State) : (cycle s).mode = (arbEval s).2.mode := by
  unfold cycle
  split <;> simp

/-- A transition as one update: the stop, deferred during a dwell (R173), then the mode and its announcement. -/
theorem transition_eq (m : ActiveMode) (s : State) : transition m s =
    { s with mode := m.toMode, cmdPending := false, curAngle := neutralAngle s.cfg,
             steerOutUs := neutralPulse s.cfg, curDir := .stop, indPos := false, indNeg := false,
             prevDir := if s.dwellActive then s.prevDir else .stop,
             pendingDir := if s.dwellActive then .stop else s.pendingDir,
             driveOutUs := if s.dwellActive then s.driveOutUs else s.cfg.stopPulse,
             trace := s.trace ++ .steerWrite (neutralPulse s.cfg) ::
               (if s.dwellActive then [] else [.driveWrite s.cfg.stopPulse]) ++ [.txLine (announcement m)] } := by
  rw [transition, stopAll_eq]
  rfl

/-- Settles O31: `undetHold_eq` with a dwell and without. -/
theorem undeterminedHoldWritesNeutralAndStop : Obligations.UndeterminedHoldWritesNeutralAndStop := by
  intro s
  refine ⟨_, congrArg Host.Outcome.next (undetHold_eq s), rfl, rfl, rfl, rfl, fun hidle => ?_, fun hdwell => ?_, rfl⟩
  · simp [hidle]
  · simp [hdwell]

/-- Settles O30: the three branches of ARB.EVAL, the last as the update `transition_eq` on the sampled state. -/
theorem arbiterChangesModeThroughSafeStop : Obligations.ArbiterChangesModeThroughSafeStop := by
  refine fun s => ⟨fun hstale => exec_arbEval_of_eq (arbEval_stale hstale), fun m hfresh hm => ?_⟩
  obtain rfl : m = classify (s.ch.get .mode).latestWidthUs := hm.trans (classify_eq _).symm
  have hother (c : Channel) (hc : c ≠ .mode) : (sample .mode s).2.ch.get c = s.ch.get c :=
    setChannel_ch_get_ne hc _ _
  have hmode : (sample .mode s).2.ch.get .mode = { s.ch.get .mode with fresh := false } := setChannel_ch_get _ _ _
  by_cases hsame : (classify (s.ch.get .mode).latestWidthUs).toMode = s.mode
  · exact ⟨_, exec_arbEval_of_eq (arbEval_same hfresh hsame), hother, hmode, hsame.symm, fun _ => rfl,
      absurd hsame⟩
  · refine ⟨_, exec_arbEval_of_eq (arbEval_change hfresh hsame), ?_⟩
    rw [transition_eq]
    refine ⟨hother, hmode, rfl, fun h => absurd h hsame, fun _ => ⟨rfl, rfl, rfl, rfl, rfl, rfl, fun hidle => ?_,
      fun hdwell => ?_, rfl⟩⟩
    · simp [hidle]
    · simp [hdwell]

/-! ### A change of the mode ends in the safe stop (R158) -/

theorem safeStop_resetEvent (s : State) : SafeStop (resetEvent s) := ⟨rfl, rfl, rfl, ⟨rfl, rfl⟩, rfl⟩

/-- The stop of a transition is safe at once: where a dwell defers its pulse, the output holds the Stop pulse already. -/
theorem safeStop_transition {s : State} (m : ActiveMode) (h : Inv s) : SafeStop (transition m s) := by
  have hdrive : (if s.dwellActive then s.driveOutUs else s.cfg.stopPulse) = s.cfg.stopPulse := by
    split
    · next hdwell => exact h.dwellHoldsStop hdwell
    · rfl
  rw [transition_eq]
  exact ⟨rfl, hdrive, rfl, ⟨rfl, rfl⟩, rfl⟩

/-- A dwell that ends after the stop ends in Stop: the pending direction is the commanded one. -/
theorem safeStop_dwellService {s : State} (hinv : Inv s) (h : SafeStop s) : SafeStop (dwellService s) := by
  cases hdwell : s.dwellActive with
  | false => rwa [dwellService_idle hdwell]
  | true =>
    cases hover : dwellOver s.cfg s.nowUs s.dwellStartUs with
    | false => rwa [dwellService_running hover]
    | true =>
      have hpending : s.pendingDir = .stop := (hinv.dwellPending hdwell).trans h.direction
      rw [dwellService_over hdwell hover, hpending]
      exact { h with drive := rfl }

/-- After a transition a CYCLE only services the dwell (R212), which keeps the safe stop. -/
theorem safeStop_cycle_of_change {s : State} (hinv : Inv s) (hchange : (arbEval s).1 = true) : SafeStop (cycle s) := by
  obtain ⟨hfresh, hother⟩ := (arbEval_fst_iff_fresh_other s).1 hchange
  rw [cycle_transition hchange, arbEval_change hfresh hother]
  have hsampled := inv_sample .mode hinv
  exact safeStop_dwellService (inv_transition _ hsampled) (safeStop_transition _ hsampled)

/-- A step that changes the mode is a RESET, or a CYCLE whose arbiter changes it. -/
theorem step_mode_change {s t : State} (h : step s = .next t) (hne : t.mode ≠ s.mode) :
    ((fetch s).1 = .event .reset ∧ t = resetEvent (fetch s).2) ∨
      ((fetch s).1 = .event .cycle ∧ t = cycle (fetch s).2 ∧ (arbEval (fetch s).2).1 = true) := by
  obtain ⟨-, hreset | ⟨d, -, rfl⟩ | ⟨_, v, c, -, -, rfl⟩ | ⟨hcycle, rfl⟩ | ⟨-, ⟨-, rfl⟩ | ⟨-, rfl⟩⟩ | ⟨-, rfl⟩ |
    ⟨b, -, -, rfl⟩⟩ := step_cases h
  · exact .inl hreset
  · -- TICK
    exact absurd (by simp) hne
  · -- PIN
    exact absurd (by simp) hne
  · exact .inr ⟨hcycle, rfl, (arbEval_fst_iff _).2 (by rwa [← cycle_mode, fetch_snd_mode])⟩
  · -- LF on an empty line
    exact absurd (by simp) hne
  · -- LF that completes a line
    exact absurd (by simp) hne
  · -- CR
    exact absurd (by simp) hne
  · -- a data byte
    exact absurd (by simp) hne

/-- Settles O48: RESET leaves the safe stop, and so does a CYCLE with a transition. -/
theorem modeChangeEndsInSafeStop : Obligations.ModeChangeEndsInSafeStop := by
  intro s t hinv hstep hne
  obtain ⟨-, rfl⟩ | ⟨-, rfl, hchange⟩ := step_mode_change hstep hne
  · exact safeStop_resetEvent _
  · exact safeStop_cycle_of_change (inv_fetch hinv) hchange

/-! ### Undetermined (R154, R155, R262) -/

/-- In Undetermined the hold finds the registers as it would write them (R155). -/
theorem undetHold_of_inv {s : State} (h : Inv s) (hm : s.mode = .undetermined) : undetHold s =
    { s with cmdPending := false,
             trace := s.trace ++ [.steerWrite (neutralPulse s.cfg), .driveWrite s.cfg.stopPulse] } := by
  obtain ⟨hsteer, hdrive, hangle, hdir, hidle⟩ := h.undetermined hm
  have hprev : s.prevDir = s.curDir := h.noDwellPrevious hidle
  rw [undetHold_eq]
  simp [hidle, ← hsteer, ← hdrive, ← hangle, ← hdir, hprev]

/-- With nothing new on the mode channel an Undetermined CYCLE is the hold and the service of the dwell (R210). -/
theorem cycle_undetermined_stale {s : State} (hm : s.mode = .undetermined) (hstale : (s.ch.get .mode).fresh = false) :
    cycle s = dwellService (undetHold s) := by
  simp [cycle, arbEval_stale hstale, handler, indicatorPhase, hm]

/-- Settles O56: the CYCLE is the hold alone, since no dwell runs in Undetermined. -/
theorem undeterminedCycleWritesNeutralAndStop : Obligations.UndeterminedCycleWritesNeutralAndStop := by
  intro s hinv hm hstale
  obtain ⟨-, -, -, -, hidle⟩ := hinv.undetermined hm
  have hcycle : cycle s = { s with
      cmdPending := false, trace := s.trace ++ [.steerWrite (neutralPulse s.cfg), .driveWrite s.cfg.stopPulse] } := by
    rw [cycle_undetermined_stale hm hstale, undetHold_of_inv hinv hm]
    exact dwellService_idle hidle
  exact ⟨_, congrArg Host.Outcome.next hcycle, rfl, rfl, hm, rfl⟩

/-- The arbiter never enters Undetermined: the mode of a width is an active one (R150, R154). -/
theorem arbEval_undetermined {s : State} (h : (arbEval s).2.mode = .undetermined) : s.mode = .undetermined := by
  by_contra hne
  have hchange : (arbEval s).1 = true := (arbEval_fst_iff s).2 (h ▸ Ne.symm hne)
  obtain ⟨hfresh, hother⟩ := (arbEval_fst_iff_fresh_other s).1 hchange
  rw [arbEval_change hfresh hother] at h
  exact toMode_ne_undetermined _ h

theorem execRxLf_mode {s t : State} (h : execRxLf s = .next t) : t.mode = s.mode := by
  obtain rfl := Host.Outcome.next.inj ((execRxLf_eq s).symm.trans h)
  split <;> rfl

/-- Settles O50: RESET and the arbiter alone write the mode, and the arbiter writes an active one. -/
theorem undeterminedIsEnteredByResetAlone : Obligations.UndeterminedIsEnteredByResetAlone := by
  refine ⟨fun i s t h hm => ?_, fun s hstale => ⟨cycle s, rfl, ?_⟩⟩
  · cases i with
    | reset => exact .inl rfl
    | arbEval =>
      cases h
      exact .inr (arbEval_undetermined hm)
    | cycle =>
      cases h
      exact .inr (arbEval_undetermined (cycle_mode s ▸ hm))
    | rxLf => exact .inr (execRxLf_mode h ▸ hm)
    | _ =>
      cases h
      exact .inr (by simpa using hm)
  · rw [cycle_mode, arbEval_stale hstale]

/-- A fresh width was captured: an unarmed channel has none (R13, R14). -/
theorem Inv.armed_of_fresh {s : State} (h : Inv s) {c : Channel} (hfresh : (s.ch.get c).fresh = true) :
    (s.ch.get c).armed = true := by
  by_contra harmed
  exact nomatch hfresh.symm.trans (h.unarmed c (by simpa using harmed)).2

@[simp] theorem fetch_snd_ch (s : State) : (fetch s).2.ch = s.ch := by rw [fetch_snd]

/-- Settles O57: a step that stays keeps the invariant and sends nothing; one that leaves is a CYCLE whose arbiter
finds a fresh width, which the invariant says was captured. -/
theorem undeterminedEndsOnlyByACapturedModeWidth : Obligations.UndeterminedEndsOnlyByACapturedModeWidth := by
  intro s t hinv hm hstep
  by_cases hstay : t.mode = .undetermined
  · obtain ⟨hsteer, hdrive, -, hdir, -⟩ := (everyStepKeepsTheInvariant s t hinv hstep).undetermined hstay
    obtain ⟨es, htrace, hquiet, -⟩ := eachModeChangeIsAnnouncedOnce s t hstep
    exact .inl ⟨hstay, hsteer, hdrive, hdir, es, htrace, hquiet (.inr hstay)⟩
  · have hne : t.mode ≠ s.mode := hm ▸ hstay
    have hsafe := modeChangeEndsInSafeStop s t hinv hstep hne
    obtain ⟨-, rfl⟩ | ⟨hcycle, rfl, hchange⟩ := step_mode_change hstep hne
    · exact absurd rfl hstay
    · obtain ⟨hfresh, hother⟩ := (arbEval_fst_iff_fresh_other _).1 hchange
      have hmode : (cycle (fetch s).2).mode = (classify ((fetch s).2.ch.get .mode).latestWidthUs).toMode := by
        rw [cycle_mode, arbEval_change hfresh hother, transition_mode]
      rw [fetch_snd_ch] at hfresh hmode
      exact .inr ⟨hcycle, hfresh, hinv.armed_of_fresh hfresh, hsafe, by rw [hmode, classify_toMode]⟩

end Sys2Proof.Machine

/-! ## The output mapper (R170 to R186) -/

namespace Sys2Proof.Machine

/-! ### Steering (R170, R171) -/

/-- What SteerPulse takes off OUTPUT_MAX is the floor of the angle's share of the output span (R170). -/
theorem steerPulse_drop (g : Config) (a : Int) : g.outputMax - steerPulse g a =
    (a - g.domainMin) * (g.outputMax - g.outputMin) / (g.domainMax - g.domainMin) := by
  unfold steerPulse
  omega

theorem steerPulse_domainMin (g : Config) : steerPulse g g.domainMin = g.outputMax := by simp [steerPulse]

theorem steerPulse_domainMax {g : Config} (h : g.Valid) : steerPulse g g.domainMax = g.outputMin := by
  have hspan : g.domainMax - g.domainMin ≠ 0 := by
    have := valid_domain h
    omega
  rw [steerPulse, Int.mul_ediv_cancel_left _ hspan]
  omega

theorem steerPulse_antitone {g : Config} (h : g.Valid) : Antitone (steerPulse g) := by
  intro a b hab
  have hdomain := valid_domain h
  have houtput := valid_output h
  exact sub_le_sub_left (Int.ediv_le_ediv (by omega)
    (mul_le_mul_of_nonneg_right (by omega) (by omega))) g.outputMax

/-- One angle further costs at least one microsecond where the output span is at least the domain span: the share grows
by the output span, so its floor by one or more. -/
theorem steerPulse_strictAnti {g : Config} (h : g.Valid)
    (hspan : g.domainMax - g.domainMin ≤ g.outputMax - g.outputMin) : StrictAnti (steerPulse g) := by
  refine strictAnti_int_of_succ_lt fun a => ?_
  have hdomain := valid_domain h
  have hshare : (a - g.domainMin) * (g.outputMax - g.outputMin) + 1 * (g.domainMax - g.domainMin) ≤
      (a + 1 - g.domainMin) * (g.outputMax - g.outputMin) := by linarith
  have hfloor := Int.ediv_le_ediv (c := g.domainMax - g.domainMin) (by omega) hshare
  rw [Int.add_mul_ediv_right _ _ (by omega)] at hfloor
  unfold steerPulse
  omega

/-- Settles O33: the pulse's drop from OUTPUT_MAX is a floored share, zero at the one end and the whole output span at
the other. -/
theorem steerPulseIsReversedAndBounded : Obligations.SteerPulseIsReversedAndBounded := by
  intro g h
  have hspan : 0 < g.domainMax - g.domainMin := sub_pos.2 (valid_domain h)
  refine ⟨steerPulse_domainMin g, steerPulse_domainMax h, fun a ha => ?_, fun a b hab => steerPulse_antitone h hab,
    fun hle a b hab => steerPulse_strictAnti h hle hab⟩
  obtain ⟨hlow, hhigh⟩ := steerPulse_bounds h ha
  rw [steerPulse_drop]
  exact ⟨hlow, hhigh, Int.ediv_mul_le _ hspan.ne', Int.lt_ediv_add_one_mul_self _ hspan⟩

/-- Settles O34: `steerCmd` with the clamp as a maximum and a minimum. -/
theorem steerCommandWritesTheMappedPulse : Obligations.SteerCommandWritesTheMappedPulse := fun angle s hv =>
  ⟨steerCmd angle s, rfl, clamp_eq_max_min _ (valid_domain hv).le, rfl, rfl, rfl⟩

/-! ### Drive commands (R172, R173, R183) -/

theorem isReversal_eq_false_iff (p d : Direction) : isReversal p d = false ↔
    ¬ (d = .forward ∧ p = .backward ∨ d = .backward ∧ p = .forward) := by
  rw [← isReversal_iff, Bool.not_eq_true]

@[simp] theorem isReversal_self (d : Direction) : isReversal d d = false := by cases d <;> rfl

/-- A drive command concerns the directions, the drive output, the dwell and the trace alone. -/
theorem driveCmd_frame (d : Direction) (s : State) : driveCmd d s =
    { s with curDir := (driveCmd d s).curDir, prevDir := (driveCmd d s).prevDir,
             driveOutUs := (driveCmd d s).driveOutUs, dwellActive := (driveCmd d s).dwellActive,
             dwellStartUs := (driveCmd d s).dwellStartUs, pendingDir := (driveCmd d s).pendingDir,
             trace := (driveCmd d s).trace } := by
  apply State.ext <;> simp

@[simp] theorem driveCmd_curDir (d : Direction) (s : State) : (driveCmd d s).curDir = d := by
  unfold driveCmd
  split
  · rfl
  · split <;> rfl

theorem exec_driveCmd_of_eq {d : Direction} {s t : State} (h : driveCmd d s = t) :
    exec (.driveCmd d) s = .next t := congrArg Host.Outcome.next h

/-- Settles O35: the branches are `driveCmd_dwell`, `driveCmd_reversal` and `driveCmd_direct`. -/
theorem driveCommandDefersDwellsOrWrites : Obligations.DriveCommandDefersDwellsOrWrites := by
  intro d s
  obtain hdwell | hidle := Bool.eq_false_or_eq_true s.dwellActive
  · have hbusy {p : Prop} (h : s.dwellActive = false) : p := nomatch hdwell.symm.trans h
    exact ⟨_, exec_driveCmd_of_eq (driveCmd_dwell d hdwell), rfl, fun _ => ⟨rfl, rfl⟩, fun h => hbusy h,
      fun h => hbusy h⟩
  · have hfree {p : Prop} (h : s.dwellActive = true) : p := nomatch hidle.symm.trans h
    cases hrev : isReversal s.prevDir d with
    | true =>
      have hyes := (isReversal_iff _ _).1 hrev
      exact ⟨_, exec_driveCmd_of_eq (driveCmd_reversal hidle hrev), rfl, fun h => hfree h,
        fun _ _ => ⟨rfl, rfl, rfl, rfl, rfl, rfl⟩, fun _ hno => absurd hyes hno⟩
    | false =>
      have hno := (isReversal_eq_false_iff _ _).1 hrev
      exact ⟨_, exec_driveCmd_of_eq (driveCmd_direct hidle hrev), rfl, fun h => hfree h,
        fun _ hyes => absurd hyes hno, fun _ _ => ⟨by cases d <;> rfl, rfl, rfl, rfl⟩⟩

/-- A steering and a drive command, one after the other (R181, R183). -/
theorem execAll_steer_drive (a : Int) (d : Direction) (s : State) :
    execAll [.steerCmd a, .driveCmd d] s = .next (driveCmd d (steerCmd a s)) := rfl

/-- A drive command after which no dwell runs has written its pulse at once (R173, branch (c)). -/
theorem driveCmd_writes_of_idle_after {d : Direction} {s : State} (h : (driveCmd d s).dwellActive = false) :
    (driveCmd d s).prevDir = d ∧ (driveCmd d s).driveOutUs = drivePulse s.cfg d ∧
      (driveCmd d s).trace = s.trace ++ [.driveWrite (drivePulse s.cfg d)] := by
  cases hdwell : s.dwellActive with
  | true =>
    rw [driveCmd_dwell d hdwell] at h
    exact nomatch hdwell.symm.trans h
  | false =>
    cases hrev : isReversal s.prevDir d with
    | true =>
      rw [driveCmd_reversal hdwell hrev] at h
      cases h
    | false =>
      rw [driveCmd_direct hdwell hrev]
      exact ⟨rfl, rfl, rfl⟩

/-- Settles O39: the second application is deferred when the first left a dwell, and a direct write when not. -/
theorem repeatedCommandRepeatsItsPulses : Obligations.RepeatedCommandRepeatsItsPulses := by
  intro a d s
  refine ⟨_, _, steerPulse s.cfg (calibrated s.cfg a), execAll_steer_drive a d s, execAll_steer_drive a d _, ?_⟩
  generalize ht : driveCmd d (steerCmd a s) = t
  have hcfg : t.cfg = s.cfg := by simp [← ht]
  have hsteer : t.steerOutUs = steerPulse s.cfg (calibrated s.cfg a) := by simp [← ht]
  cases hdwell : t.dwellActive with
  | true =>
    rw [driveCmd_dwell (s := steerCmd a t) d hdwell]
    refine ⟨?_, rfl, hdwell, rfl, hsteer, nofun, fun _ => ?_⟩ <;> simp [hcfg, hsteer]
  | false =>
    obtain ⟨hprev, hout, htrace⟩ := driveCmd_writes_of_idle_after (d := d) (s := steerCmd a s) (by rw [ht, hdwell])
    rw [ht] at hprev hout htrace
    rw [driveCmd_direct (s := steerCmd a t) hdwell (by simp [hprev])]
    refine ⟨?_, ?_, hdwell, rfl, hsteer, fun _ => ⟨?_, ?_⟩, nofun⟩
    · simp [hcfg, hsteer]
    · simp [hcfg, hout]
    · simp [htrace, hout]
    · simp [hcfg, hout]

/-! ### The end of a dwell (R174, R214) -/

theorem exec_dwellService_of_eq {s t : State} (h : dwellService s = t) : exec .dwellService s = .next t :=
  congrArg Host.Outcome.next h

/-- Settles O36: the two cases are `dwellService_over` and the two in which nothing happens. -/
theorem dwellServiceEndsAnExpiredDwell : Obligations.DwellServiceEndsAnExpiredDwell := by
  intro s
  refine ⟨fun hdwell hover => ?_, fun h => exec_dwellService_of_eq ?_⟩
  · rw [← dwellOver_iff] at hover
    exact ⟨_, exec_dwellService_of_eq (dwellService_over hdwell hover), rfl, rfl, rfl, rfl, rfl⟩
  · obtain hidle | hearly := h
    · exact dwellService_idle hidle
    · exact dwellService_running (Bool.eq_false_iff.2 (mt (dwellOver_iff _ _ _).1 (not_le.2 hearly)))

theorem dwellService_ends_iff {s : State} (h : s.dwellActive = true) :
    (dwellService s).dwellActive = false ↔ dwellOver s.cfg s.nowUs s.dwellStartUs = true := by
  cases hover : dwellOver s.cfg s.nowUs s.dwellStartUs with
  | true => simp [dwellService_over h hover]
  | false => simp [dwellService_running hover, h]

/-- Below a whole turn of the counter the comparison sees the time that has truly passed (R214). -/
theorem dwellOver_after (g : Config) (start : Us) {n : Nat} (h : n < 4294967296) :
    dwellOver g (start + BitVec.ofNat 32 n) start = true ↔ g.reversalDwellMs * 1000 ≤ (n : Int) := by
  have hstart : start.toNat < 4294967296 := start.isLt
  have hn : ((start + BitVec.ofNat 32 n).toNat + 4294967296 - start.toNat) % 4294967296 = n := by
    simp only [BitVec.toNat_add, BitVec.toNat_ofNat, tsW]
    omega
  rw [dwellOver_iff, hn]

/-- Settles O37: the premises keep the time since the dwell's start below a whole turn of the counter. -/
theorem dwellComparisonIsExactWithinTheCyclePeriod : Obligations.DwellComparisonIsExactWithinTheCyclePeriod := by
  intro s k d _ hdwell hk hd hperiod hnow
  refine ⟨_, rfl, ?_⟩
  rw [dwellService_ends_iff hdwell, hnow]
  exact dwellOver_after _ _ (by omega)

/-! ### A dwell from its reversal to its end (R175) -/

/-- In `t` the dwell that a reversal began in `s` still runs, `n` microseconds later and with direction `d` pending;
nothing but the Stop pulse has been written since. -/
structure DwellsSince (s : State) (d : Direction) (n : Nat) (t : State) : Prop where
  cfg : t.cfg = s.cfg
  active : t.dwellActive = true
  start : t.dwellStartUs = s.nowUs
  now : t.nowUs = s.nowUs + BitVec.ofNat 32 n
  pending : t.pendingDir = d
  previous : t.prevDir = s.prevDir
  output : t.driveOutUs = s.cfg.stopPulse
  trace : t.trace = s.trace ++ [.driveWrite s.cfg.stopPulse]

theorem driveCmd_reversal_dwellsSince {s : State} {d : Direction} (h : s.dwellActive = false)
    (hr : isReversal s.prevDir d = true) : DwellsSince s d 0 (driveCmd d s) := by
  rw [driveCmd_reversal h hr]
  exact ⟨rfl, rfl, rfl, by simp, rfl, rfl, rfl, rfl⟩

theorem DwellsSince.driveCmd {s t : State} {d : Direction} {n : Nat} (h : DwellsSince s d n t) (d' : Direction) :
    DwellsSince s d' n (driveCmd d' t) := by
  rw [driveCmd_dwell d' h.active]
  exact { h with pending := rfl }

theorem DwellsSince.advance {s t : State} {d : Direction} {n : Nat} (h : DwellsSince s d n t) (k : Nat) :
    DwellsSince s d (n + k) (advance k t) :=
  { h with now := by rw [advance_nowUs, h.now, BitVec.add_assoc, BitVec.ofNat_add] }

theorem DwellsSince.dwellOver_iff {s t : State} {d : Direction} {n : Nat} (h : DwellsSince s d n t)
    (hn : n < 4294967296) :
    dwellOver t.cfg t.nowUs t.dwellStartUs = true ↔ s.cfg.reversalDwellMs * 1000 ≤ (n : Int) := by
  rw [h.cfg, h.now, h.start, dwellOver_after _ _ hn]

theorem DwellsSince.dwellService_early {s t : State} {d : Direction} {n : Nat} (h : DwellsSince s d n t)
    (hn : n < 4294967296) (hearly : (n : Int) < s.cfg.reversalDwellMs * 1000) : dwellService t = t :=
  dwellService_running (Bool.eq_false_iff.2 (mt (h.dwellOver_iff hn).1 (not_le.2 hearly)))

/-- No service of the dwell comes among `acts`, or the dwell outlasts them all (R175). -/
def NotServedWhenOver (g : Config) (n : Nat) (acts : List DwellAct) : Prop :=
  ((n + waited acts : Nat) : Int) < g.reversalDwellMs * 1000 ∨ DwellAct.service ∉ acts

/-- Commands, waits and early services leave the dwell running, with the last direction commanded pending. -/
theorem DwellsSince.execAll {s t : State} {d : Direction} {n : Nat} {acts : List DwellAct} (hv : s.cfg.Valid)
    (h : DwellsSince s d n t) (hacts : NotServedWhenOver s.cfg n acts) :
    ∃ u, execAll (acts.map DwellAct.instr) t = .next u ∧
      DwellsSince s (lastCommand d acts) (n + waited acts) u := by
  induction acts generalizing t d n with
  | nil => exact ⟨t, rfl, h⟩
  | cons act acts ih =>
    have hrest : NotServedWhenOver s.cfg (n + waited [act]) acts := by
      refine hacts.imp (fun hlt => ?_) (fun hno hmem => hno (List.mem_cons_of_mem act hmem))
      cases act <;> simp only [waited] at hlt ⊢ <;> omega
    cases act with
    | command d' => exact ih (h.driveCmd d') hrest
    | wait k =>
      obtain ⟨u, hgo, hu⟩ := ih (h.advance k) hrest
      exact ⟨u, hgo, by rwa [Nat.add_assoc] at hu⟩
    | service =>
      have hearly : (n : Int) < s.cfg.reversalDwellMs * 1000 := by
        obtain hlt | hno := hacts
        · omega
        · exact absurd List.mem_cons_self hno
      obtain ⟨-, hmax⟩ := valid_dwell hv
      have hstay : exec .dwellService t = .next t :=
        exec_dwellService_of_eq (h.dwellService_early (by omega) hearly)
      obtain ⟨u, hgo, hu⟩ := ih h hrest
      exact ⟨u, by simpa only [List.map_cons, DwellAct.instr, Machine.execAll, hstay] using hgo, hu⟩

/-- Settles O38: the reversal begins the dwell, `acts` and the last wait leave it running, and the service at the end
finds it over or not. -/
theorem reversalWritesOneStopThenTheLastDirection : Obligations.ReversalWritesOneStopThenTheLastDirection := by
  intro s d acts k hv hidle hrev hacts hturn
  have hbegin := driveCmd_reversal_dwellsSince hidle ((isReversal_iff _ _).2 hrev)
  obtain ⟨u, hgo, hu⟩ := hbegin.execAll hv (acts := acts) (by simpa [NotServedWhenOver] using hacts)
  have hlast := hu.advance k
  rw [Nat.zero_add] at hlast
  refine ⟨dwellService (advance k u), execAll_append hgo, fun hearly => ?_, fun hend => ?_⟩
  · rw [hlast.dwellService_early hturn hearly]
    exact ⟨hlast.trace, hlast.active, hlast.previous, hlast.output, hlast.pending, hlast.start⟩
  · generalize advance k u = v at hlast ⊢
    rw [dwellService_over hlast.active ((hlast.dwellOver_iff hturn).2 hend)]
    simp [hlast.trace, hlast.cfg, hlast.pending]

/-! ### Nothing else ends a dwell (R174, R261) -/

/-- If a dwell runs in `s`, the same dwell runs in `t`. -/
def DwellGoesOn (s t : State) : Prop :=
  s.dwellActive = true → t.dwellActive = true ∧ t.dwellStartUs = s.dwellStartUs

theorem DwellGoesOn.of_eq {s t : State} (hactive : t.dwellActive = s.dwellActive)
    (hstart : t.dwellStartUs = s.dwellStartUs) : DwellGoesOn s t := fun h => ⟨hactive.trans h, hstart⟩

theorem DwellGoesOn.trans {s t u : State} (h₁ : DwellGoesOn s t) (h₂ : DwellGoesOn t u) : DwellGoesOn s u := by
  intro h
  obtain ⟨hactive, hstart⟩ := h₁ h
  obtain ⟨hactive', hstart'⟩ := h₂ hactive
  exact ⟨hactive', hstart'.trans hstart⟩

theorem driveCmd_dwellGoesOn (d : Direction) (s : State) : DwellGoesOn s (driveCmd d s) := by
  intro h
  rw [driveCmd_dwell d h]
  exact ⟨h, rfl⟩

theorem undetHold_dwellGoesOn (s : State) : DwellGoesOn s (undetHold s) := by
  rw [undetHold_eq]
  exact .of_eq rfl rfl

theorem transition_dwellGoesOn (m : ActiveMode) (s : State) : DwellGoesOn s (transition m s) := by
  rw [transition_eq]
  exact .of_eq rfl rfl

theorem autoApply_dwellGoesOn (s : State) : DwellGoesOn s (autoApply s) := by
  unfold autoApply
  split
  · exact driveCmd_dwellGoesOn s.cmdDir (steerCmd s.cmdAngle (discardCommand s))
  · exact .of_eq rfl rfl

theorem arbEval_dwellGoesOn (s : State) : DwellGoesOn s (arbEval s).2 := by
  cases hfresh : (s.ch.get .mode).fresh with
  | false =>
    rw [arbEval_stale hfresh]
    exact .of_eq rfl rfl
  | true =>
    by_cases hm : (classify (s.ch.get .mode).latestWidthUs).toMode = s.mode
    · rw [arbEval_same hfresh hm]
      exact .of_eq rfl rfl
    · rw [arbEval_change hfresh hm]
      exact transition_dwellGoesOn _ (sample .mode s).2

theorem handler_dwellGoesOn (s : State) : DwellGoesOn s (handler s) := by
  unfold handler
  split
  · exact undetHold_dwellGoesOn s
  · exact .of_eq (by simp) (by simp)
  · exact autoApply_dwellGoesOn s

/-- The phases before DWELL.SERVICE leave it the dwell and the time as they found them. -/
theorem dwellOver_of_goesOn {s t : State} (hactive : s.dwellActive = true) (hgo : DwellGoesOn s t)
    (hcfg : t.cfg = s.cfg) (hnow : t.nowUs = s.nowUs) (hend : (dwellService t).dwellActive = false) :
    dwellOver s.cfg s.nowUs s.dwellStartUs = true := by
  obtain ⟨hactive', hstart⟩ := hgo hactive
  rw [dwellService_ends_iff hactive', hcfg, hnow, hstart] at hend
  exact hend

theorem cycle_ends_expired_dwell {s : State} (hactive : s.dwellActive = true)
    (hend : (cycle s).dwellActive = false) : dwellOver s.cfg s.nowUs s.dwellStartUs = true := by
  have ha := arbEval_dwellGoesOn s
  cases hchange : (arbEval s).1 with
  | true =>
    rw [cycle_transition hchange] at hend
    exact dwellOver_of_goesOn hactive ha (by simp) (by simp) hend
  | false =>
    rw [cycle_ordinary hchange, indicatorPhase_dwellActive] at hend
    exact dwellOver_of_goesOn hactive (ha.trans (handler_dwellGoesOn _)) (by simp) (by simp) hend

/-- Settles O54: RESET and CYCLE are the only steps that write the flag, and a CYCLE clears it only on expiry. -/
theorem dwellEndsOnlyByExpiryOrReset : Obligations.DwellEndsOnlyByExpiryOrReset := by
  intro s t hstep hactive hend
  have hactive' : (fetch s).2.dwellActive = true := by rw [fetch_snd, hactive]
  have hkept (h : t.dwellActive = (fetch s).2.dwellActive) {p : Prop} : p :=
    nomatch (h.trans hactive').symm.trans hend
  obtain ⟨-, ⟨hreset, -⟩ | ⟨d, -, rfl⟩ | ⟨_, v, c, -, -, rfl⟩ | ⟨hcycle, rfl⟩ | ⟨-, ⟨-, rfl⟩ | ⟨-, rfl⟩⟩ |
    ⟨-, rfl⟩ | ⟨b, -, -, rfl⟩⟩ := step_cases hstep
  · exact .inl hreset
  · -- TICK
    exact hkept (by simp)
  · -- PIN
    exact hkept (by simp)
  · have hover := cycle_ends_expired_dwell hactive' hend
    rw [fetch_snd, dwellOver_iff] at hover
    exact .inr ⟨hcycle, hover⟩
  · -- LF on an empty line
    exact hkept rfl
  · -- LF that completes a line
    exact hkept (by simp)
  · -- CR
    exact hkept rfl
  · -- a data byte
    exact hkept (by simp)

/-! ### The stop, and the commands of Auto (R176, R181) -/

/-- Settles O40: `stopAll_eq` with a dwell and without; the invariant has the Stop pulse on the output of a dwell. -/
theorem stopAllForcesTheSafeOutputs : Obligations.StopAllForcesTheSafeOutputs := by
  intro s
  refine ⟨_, congrArg Host.Outcome.next (stopAll_eq s), rfl, rfl, rfl, rfl, rfl, rfl, fun hidle => ?_, fun hdwell => ?_,
    fun hinv => ?_, rfl⟩
  · simp [hidle]
  · simp [hdwell]
  · show (if s.dwellActive then s.driveOutUs else s.cfg.stopPulse) = s.cfg.stopPulse
    split
    · next hdwell => exact hinv.dwellHoldsStop hdwell
    · rfl

theorem autoApply_none {s : State} (h : s.cmdPending = false) : autoApply s = s := by simp [autoApply, h]

theorem autoApply_pending {s : State} (h : s.cmdPending = true) :
    autoApply s = driveCmd s.cmdDir (steerCmd s.cmdAngle (discardCommand s)) := by simp [autoApply, h]

/-- Settles O41: AUTO.APPLY is the steering and the drive command on the state with the flag cleared. -/
theorem autoApplyConsumesThePendingCommand : Obligations.AutoApplyConsumesThePendingCommand := by
  intro s
  refine ⟨fun hnone => congrArg Host.Outcome.next (autoApply_none hnone), fun hpending =>
    ⟨_, congrArg Host.Outcome.next (autoApply_pending hpending), execAll_steer_drive _ _ _, ?_⟩⟩
  refine ⟨by simp, by simp, by simp, by simp, ?_⟩
  rw [driveCmd_frame]
  rfl

/-! ### The outputs of Manual (R177, R178) -/

theorem manualSteer_stale {s : State} (h : (s.ch.get .steer).fresh = false) : manualSteer s = s := by
  simp [manualSteer, h]

theorem manualSteer_fresh {s : State} (h : (s.ch.get .steer).fresh = true) : manualSteer s =
    { s with ch := s.ch.set .steer { s.ch.get .steer with fresh := false },
             steerOutUs := manualSteerPulse (s.ch.get .steer).latestWidthUs,
             trace := s.trace ++ [.steerWrite (manualSteerPulse (s.ch.get .steer).latestWidthUs)] } := by
  simp [manualSteer, h, sample, setChannel, writeSteer, emit]

theorem manualDrive_stale {s : State} (h : (s.ch.get .throt).fresh = false) : manualDrive s = s := by
  simp [manualDrive, h]

theorem manualDrive_dwell {s : State} (h : s.dwellActive = true) : manualDrive s = s := by simp [manualDrive, h]

theorem manualDrive_fresh {s : State} (h : (s.ch.get .throt).fresh = true) (hidle : s.dwellActive = false) :
    manualDrive s =
      { s with ch := s.ch.set .throt { s.ch.get .throt with fresh := false },
               driveOutUs := manualDrivePulse s.cfg (s.ch.get .throt).latestWidthUs,
               trace := s.trace ++ [.driveWrite (manualDrivePulse s.cfg (s.ch.get .throt).latestWidthUs)] } := by
  simp [manualDrive, h, hidle, sample, setChannel, writeDrive, emit]

theorem manualSteerPulse_eq (w : Us) : manualSteerPulse w = max 1000 (min 2000 (w.toNat : Int)) :=
  clamp_eq_max_min _ (by decide)

theorem manualDrivePulse_eq (g : Config) (w : Us) : manualDrivePulse g w =
    max 1000 (min 2000 (1500 + Int.tdiv ((w.toNat : Int) - 1500) g.manualDivisor)) := by
  rw [manualDrivePulse, clamp_eq_max_min _ (by decide), tdiv_eq]
  rfl

/-- Settles O42: a fresh width is sampled and its clamp written. -/
theorem manualSteeringPassesTheClampedWidth : Obligations.ManualSteeringPassesTheClampedWidth := by
  intro s
  refine ⟨fun hstale => congrArg Host.Outcome.next (manualSteer_stale hstale), fun hfresh =>
    ⟨_, congrArg Host.Outcome.next (manualSteer_fresh hfresh), ?_⟩⟩
  rw [manualSteerPulse_eq]
  exact ⟨rfl, rfl, PerChannel.get_set s.ch .steer _, fun _ hc => PerChannel.get_set_ne s.ch _ hc, rfl⟩

/-- Settles O43: with no dwell a fresh width is sampled and its attenuated deviation written. -/
theorem manualDriveAttenuatesTheDeviation : Obligations.ManualDriveAttenuatesTheDeviation := by
  intro s _
  refine ⟨fun h => congrArg Host.Outcome.next (h.elim manualDrive_stale manualDrive_dwell), fun hfresh hidle =>
    ⟨_, congrArg Host.Outcome.next (manualDrive_fresh hfresh hidle), ?_⟩⟩
  rw [manualDrivePulse_eq]
  exact ⟨rfl, rfl, PerChannel.get_set s.ch .throt _, fun _ hc => PerChannel.get_set_ne s.ch _ hc, rfl⟩

/-! ### The waveform of an output pin (R186) -/

/-- The frame's levels are high below the register's value and low from it on. -/
theorem pwmFrame_of_le {p period : Nat} (h : p ≤ period) :
    pwmFrame (p : Int) period = List.replicate p true ++ List.replicate (period - p) false := by
  refine List.ext_getElem (by simp [pwmFrame, h]) fun j _ _ => ?_
  by_cases hj : j < p
  · rw [List.getElem_append_left (by simpa using hj)]
    simpa [pwmFrame, pwmLevel] using hj
  · rw [List.getElem_append_right (by simpa using hj)]
    simpa [pwmFrame, pwmLevel] using hj

/-- Settles O44: both pins show the frame of their register. -/
theorem outputFrameIsHighForTheRegister : Obligations.OutputFrameIsHighForTheRegister := by
  intro s p q
  refine ⟨fun hout hfits => ?_, fun hout hfits => ?_⟩
  · rw [State.pwmOutSteer, hout, pwmFrame_of_le hfits]
  · rw [State.pwmOutDrive, hout, pwmFrame_of_le hfits]

end Sys2Proof.Machine

/-! ## The indicator (R200 to R202) -/

namespace Sys2Proof.Machine

/-! ### IND.UPDATE inside the deadband and beyond either edge (R200) -/

theorem beyondPos_iff (w : Us) : beyondPos w = true ↔ 1600 < w.toNat := by
  rw [beyondPos, decide_eq_true_iff, deviation, usInt, deadband, neutralUs]
  omega

theorem beyondNeg_iff (w : Us) : beyondNeg w = true ↔ w.toNat < 1400 := by
  rw [beyondNeg, decide_eq_true_iff, deviation, usInt, deadband, neutralUs]
  omega

theorem blinkAdvance_due {s : State} (h : blinkDue s.nowUs s.blinkLastUs = true) :
    blinkAdvance s = { s with blinkLastUs := s.nowUs, blinkState := !s.blinkState } := by simp [blinkAdvance, h]

theorem blinkAdvance_early {s : State} (h : blinkDue s.nowUs s.blinkLastUs = false) : blinkAdvance s = s := by
  simp [blinkAdvance, h]

theorem indUpdate_pos {s : State} (h : 1600 < (s.ch.get .steer).latestWidthUs.toNat) : indUpdate s =
    { blinkAdvance s with indPos := (blinkAdvance s).blinkState, indNeg := false } := by
  simp [indUpdate, (beyondPos_iff _).2 h]

theorem indUpdate_neg {s : State} (h : (s.ch.get .steer).latestWidthUs.toNat < 1400) : indUpdate s =
    { blinkAdvance s with indNeg := (blinkAdvance s).blinkState, indPos := false } := by
  have hpos : ¬ beyondPos (s.ch.get .steer).latestWidthUs = true := by
    rw [beyondPos_iff]
    omega
  simp [indUpdate, hpos, (beyondNeg_iff _).2 h]

theorem indUpdate_inside {s : State} (hlow : 1400 ≤ (s.ch.get .steer).latestWidthUs.toNat)
    (hhigh : (s.ch.get .steer).latestWidthUs.toNat ≤ 1600) : indUpdate s = indicatorsOff s := by
  have hpos : ¬ beyondPos (s.ch.get .steer).latestWidthUs = true := by rwa [beyondPos_iff, not_lt]
  have hneg : ¬ beyondNeg (s.ch.get .steer).latestWidthUs = true := by rwa [beyondNeg_iff, not_lt]
  simp [indUpdate, hpos, hneg]

/-- Beyond the deadband, on either side, the toggle phase is advanced when a toggle is due. -/
theorem indUpdate_phase_of_beyond {s : State} (h : 1600 < (s.ch.get .steer).latestWidthUs.toNat ∨
    (s.ch.get .steer).latestWidthUs.toNat < 1400) :
    (indUpdate s).blinkState = (blinkAdvance s).blinkState ∧
      (indUpdate s).blinkLastUs = (blinkAdvance s).blinkLastUs := by
  obtain hpos | hneg := h
  · rw [indUpdate_pos hpos]
    exact ⟨rfl, rfl⟩
  · rw [indUpdate_neg hneg]
    exact ⟨rfl, rfl⟩

/-- Settles O45: the three cases of the deviation, and beyond the deadband a toggle that is due or is not. -/
theorem indicatorBlinksOutsideTheDeadband : Obligations.IndicatorBlinksOutsideTheDeadband := by
  intro s dev hdev
  refine ⟨indUpdate s, rfl, fun hlow hhigh => indUpdate_inside (by omega) (by omega), fun hbeyond => ?_, fun hpos => ?_,
    fun hneg => ?_, indUpdate_frame s⟩
  · obtain ⟨hstate, hlast⟩ := indUpdate_phase_of_beyond (s := s) (by omega)
    rw [hstate, hlast]
    refine ⟨fun hdue => ?_, fun hearly => ?_⟩
    · rw [blinkAdvance_due ((blinkDue_iff _ _).2 hdue)]
      exact ⟨rfl, rfl⟩
    · rw [blinkAdvance_early (Bool.eq_false_iff.2 (mt (blinkDue_iff _ _).1 hearly.not_ge))]
      exact ⟨rfl, rfl⟩
  · rw [indUpdate_pos (by omega)]
    exact ⟨rfl, rfl⟩
  · rw [indUpdate_neg (by omega)]
    exact ⟨rfl, rfl⟩

/-! ### Nothing else moves the toggle phase (R201, R202) -/

/-- From `s` to `t` the toggle phase changes: its level, or the time of its last toggle. -/
def PhaseMoves (s t : State) : Prop := t.blinkState ≠ s.blinkState ∨ t.blinkLastUs ≠ s.blinkLastUs

/-- The state calls for a toggle (R201): Manual mode, the raw steering width beyond the deadband, a toggle due. -/
def CallsForToggle (s : State) : Prop :=
  s.mode = .manual ∧
    (1600 < (s.ch.get .steer).latestWidthUs.toNat ∨ (s.ch.get .steer).latestWidthUs.toNat < 1400) ∧
    200000 ≤ (s.nowUs.toNat + 4294967296 - s.blinkLastUs.toNat) % 4294967296

theorem not_phaseMoves_of_eq {s t : State} (hstate : t.blinkState = s.blinkState)
    (hlast : t.blinkLastUs = s.blinkLastUs) : ¬ PhaseMoves s t := by
  rintro (hne | hne)
  · exact hne hstate
  · exact hne hlast

theorem beyond_of_indUpdate_phaseMoves {s : State} (h : PhaseMoves s (indUpdate s)) :
    1600 < (s.ch.get .steer).latestWidthUs.toNat ∨ (s.ch.get .steer).latestWidthUs.toNat < 1400 := by
  by_contra hinside
  rw [indUpdate_inside (by omega) (by omega)] at h
  exact not_phaseMoves_of_eq rfl rfl h

theorem due_of_indUpdate_phaseMoves {s : State} (h : PhaseMoves s (indUpdate s)) :
    blinkDue s.nowUs s.blinkLastUs = true := by
  by_contra hearly
  obtain ⟨hstate, hlast⟩ := indUpdate_phase_of_beyond (beyond_of_indUpdate_phaseMoves h)
  rw [blinkAdvance_early (Bool.eq_false_iff.2 hearly)] at hstate hlast
  exact not_phaseMoves_of_eq hstate hlast h

/-- The indicator's phase of a CYCLE moves the toggle phase only where the state calls for it. -/
theorem callsForToggle_of_indicatorPhase {s : State} (h : PhaseMoves s (indicatorPhase s)) : CallsForToggle s := by
  unfold indicatorPhase at h
  split at h
  · next hm =>
    exact ⟨hm, beyond_of_indUpdate_phaseMoves h, (blinkDue_iff _ _).1 (due_of_indUpdate_phaseMoves h)⟩
  · exact absurd h (not_phaseMoves_of_eq rfl rfl)

/-- To consume what is fresh leaves every width as it was captured. -/
theorem OnlyConsumes.latestWidthUs_eq {s t : State} (h : OnlyConsumes s t) (c : Channel) :
    (t.ch.get c).latestWidthUs = (s.ch.get c).latestWidthUs := by
  obtain hsame | hsampled := h.channels c
  · rw [hsame]
  · rw [hsampled]

/-- Without a transition, the phases before the indicator's keep the mode, the width, the time and the last toggle. -/
theorem callsForToggle_of_cycle {s : State} (h : PhaseMoves s (cycle s)) : CallsForToggle s := by
  cases hchange : (arbEval s).1 with
  | true =>
    rw [cycle_transition hchange] at h
    exact absurd h (not_phaseMoves_of_eq (by simp) (by simp))
  | false =>
    have hmode : (arbEval s).2.mode = s.mode := by
      by_contra hne
      exact nomatch hchange.symm.trans ((arbEval_fst_iff s).2 hne)
    have hwidth := ((arbEval_onlyConsumes s).trans (handler_onlyConsumes _)).latestWidthUs_eq .steer
    have hcalls : CallsForToggle (dwellService (handler (arbEval s).2)) := by
      apply callsForToggle_of_indicatorPhase
      rw [cycle_ordinary hchange] at h
      simpa [PhaseMoves] using h
    simpa [CallsForToggle, hmode, hwidth] using hcalls

/-- Settles O46: RESET and CYCLE are the only steps that write the phase, and a CYCLE moves it only where the state
calls for a toggle. -/
theorem togglePhaseIsKeptElsewhere : Obligations.TogglePhaseIsKeptElsewhere := by
  intro s t hstep hreset hmoves
  have hmoves : PhaseMoves (fetch s).2 t := by rwa [fetch_snd]
  have hkept (hstate : t.blinkState = (fetch s).2.blinkState) (hlast : t.blinkLastUs = (fetch s).2.blinkLastUs)
      {p : Prop} : p := absurd hmoves (not_phaseMoves_of_eq hstate hlast)
  obtain ⟨-, ⟨hreset', -⟩ | ⟨d, -, rfl⟩ | ⟨_, v, c, -, -, rfl⟩ | ⟨hcycle, rfl⟩ | ⟨-, ⟨-, rfl⟩ | ⟨-, rfl⟩⟩ |
    ⟨-, rfl⟩ | ⟨b, -, -, rfl⟩⟩ := step_cases hstep
  · exact absurd hreset' hreset
  · -- TICK
    exact hkept rfl rfl
  · -- PIN
    exact hkept (by simp) (by simp)
  · have hcalls := callsForToggle_of_cycle hmoves
    rw [fetch_snd] at hcalls
    exact ⟨hcycle, hcalls⟩
  · -- LF on an empty line
    exact hkept rfl rfl
  · -- LF that completes a line
    exact hkept rfl rfl
  · -- CR
    exact hkept rfl rfl
  · -- a data byte
    exact hkept (by simp) (by simp)

end Sys2Proof.Machine

/-! ## The main cycle (R210 to R216) -/

namespace Sys2Proof.Machine

/-! ### The counter (R213) -/

theorem advance_nowUs_toNat (d : Nat) (s : State) : (advance d s).nowUs.toNat = (s.nowUs.toNat + d) % 4294967296 := by
  rw [advance_nowUs, BitVec.toNat_add, BitVec.toNat_ofNat, Nat.add_mod_mod]
  rfl

theorem execRxLf_nowUs {s t : State} (h : execRxLf s = .next t) : t.nowUs = s.nowUs := by
  obtain rfl := Host.Outcome.next.inj ((execRxLf_eq s).symm.trans h)
  split <;> rfl

/-- Settles O13: `advance` is the one update beside that of RESET that writes the counter. -/
theorem tickAloneAdvancesTime : Obligations.TickAloneAdvancesTime := by
  refine ⟨fun d s => ⟨advance d s, rfl, advance_nowUs_toNat d s, rfl⟩, fun i s t h hmoved => ?_⟩
  cases i with
  | reset => exact .inl rfl
  | tick d => exact .inr ⟨d, rfl⟩
  | rxLf => exact absurd (execRxLf_nowUs h) hmoved
  | _ =>
    cases h
    exact absurd (by simp) hmoved

/-! ### The phases of a CYCLE (R210, R212) -/

/-- ARB.EVAL reports no change exactly when it kept the mode. -/
theorem arbEval_fst_eq_false_iff (s : State) : (arbEval s).1 = false ↔ (arbEval s).2.mode = s.mode := by
  rw [← Bool.not_eq_true, arbEval_fst_iff, not_not]

theorem handler_undetermined {s : State} (h : s.mode = .undetermined) : handler s = undetHold s := by
  simp [handler, h]

theorem handler_auto {s : State} (h : s.mode = .auto) : handler s = autoApply s := by simp [handler, h]

theorem handler_manual {s : State} (h : s.mode = .manual) :
    handler s = discardCommand (manualDrive (manualSteer s)) := by simp [handler, h]

theorem indicatorPhase_manual {s : State} (h : s.mode = .manual) : indicatorPhase s = indUpdate s := if_pos h

theorem indicatorPhase_other {s : State} (h : s.mode ≠ .manual) : indicatorPhase s = s := if_neg h

/-- Outside Manual mode an ordinary CYCLE ends with the service of the dwell (R202). -/
theorem cycle_ordinary_other {s : State} (hkept : (arbEval s).2.mode = s.mode) (h : s.mode ≠ .manual) :
    cycle s = dwellService (handler (arbEval s).2) := by
  rw [cycle_ordinary ((arbEval_fst_eq_false_iff s).2 hkept), indicatorPhase_other (by simpa [hkept] using h)]

theorem cycle_ordinary_manual {s : State} (hkept : (arbEval s).2.mode = s.mode) (h : s.mode = .manual) :
    cycle s = indUpdate (dwellService (handler (arbEval s).2)) := by
  rw [cycle_ordinary ((arbEval_fst_eq_false_iff s).2 hkept), indicatorPhase_manual (by simpa [hkept] using h)]

/-- Settles O47: the arbiter first, then `cycle_transition`, or the handler of the mode that was kept. -/
theorem cycleRunsItsPhasesInOrder : Obligations.CycleRunsItsPhasesInOrder := by
  intro s
  refine ⟨(arbEval s).2, cycle s, rfl, rfl, fun hchanged => ?_, fun hkept hm => ?_, fun hkept hm => ?_,
    fun hkept hm => ⟨manualDrive (manualSteer (arbEval s).2), rfl, ?_⟩⟩
  · rw [cycle_transition ((arbEval_fst_iff s).2 hchanged)]
    rfl
  · rw [cycle_ordinary_other hkept (by simp [hm]), handler_undetermined (hkept.trans hm)]
    rfl
  · rw [cycle_ordinary_other hkept (by simp [hm]), handler_auto (hkept.trans hm)]
    rfl
  · rw [cycle_ordinary_manual hkept hm, handler_manual (hkept.trans hm)]
    rfl

/-! ### The held command (R216) -/

/-- The state with another command held, pending or not. -/
def holdCommand (r : Int × Direction × Bool) (p : Bool) (s : State) : State :=
  { s with cmdAngle := r.1, cmdDir := r.2.1, cmdValid := r.2.2, cmdPending := p }

/-- The operation does the same whatever command is held, and hands the command on. -/
def IgnoresCommand (f : State → State) : Prop := ∀ r p s, f (holdCommand r p s) = holdCommand r p (f s)

theorem writeSteer_ignoresCommand (q : Int) : IgnoresCommand (writeSteer q) := fun _ _ _ => rfl

theorem dwellService_ignoresCommand : IgnoresCommand dwellService :=
  fun r p _ => Eq.symm (apply_ite (holdCommand r p) _ _ _)

theorem manualSteer_ignoresCommand : IgnoresCommand manualSteer := by
  intro r p s
  simp only [manualSteer, apply_ite (holdCommand r p), ← writeSteer_ignoresCommand _ r p]
  rfl

theorem manualDrive_ignoresCommand : IgnoresCommand manualDrive :=
  fun r p _ => Eq.symm (apply_ite (holdCommand r p) _ _ _)

theorem blinkAdvance_ignoresCommand : IgnoresCommand blinkAdvance :=
  fun r p _ => Eq.symm (apply_ite (holdCommand r p) _ _ _)

theorem indUpdate_ignoresCommand : IgnoresCommand indUpdate := by
  intro r p s
  simp only [indUpdate, blinkAdvance_ignoresCommand r p s, apply_ite (holdCommand r p)]
  rfl

theorem indicatorPhase_ignoresCommand : IgnoresCommand indicatorPhase := by
  intro r p s
  simp only [indicatorPhase, indUpdate_ignoresCommand r p s, apply_ite (holdCommand r p)]
  rfl

theorem transition_holdCommand (m : ActiveMode) (r : Int × Direction × Bool) (p : Bool) (s : State) :
    transition m (holdCommand r p s) = holdCommand r false (transition m s) := by
  rw [transition_eq, transition_eq]
  rfl

/-- The handlers of the other modes discard what is held (R155, R216). -/
theorem handler_holdCommand {s : State} (h : s.mode ≠ .auto) (r : Int × Direction × Bool) (p : Bool) :
    handler (holdCommand r p s) = holdCommand r false (handler s) := by
  cases hm : s.mode with
  | undetermined =>
    rw [handler_undetermined hm, handler_undetermined (s := holdCommand r p s) hm, undetHold_eq, undetHold_eq]
    rfl
  | manual =>
    rw [handler_manual hm, handler_manual (s := holdCommand r p s) hm, manualSteer_ignoresCommand,
      manualDrive_ignoresCommand]
    rfl
  | auto => exact absurd hm h

/-- The arbiter decides without the held command; a transition discards it, and otherwise it stays. -/
theorem arbEval_holdCommand (r : Int × Direction × Bool) (p : Bool) (s : State) :
    arbEval (holdCommand r p s) = ((arbEval s).1, holdCommand r (!(arbEval s).1 && p) (arbEval s).2) := by
  cases hfresh : (s.ch.get .mode).fresh with
  | false =>
    rw [arbEval_stale hfresh, arbEval_stale (s := holdCommand r p s) hfresh]
    rfl
  | true =>
    by_cases hm : (classify (s.ch.get .mode).latestWidthUs).toMode = s.mode
    · rw [arbEval_same hfresh hm, arbEval_same (s := holdCommand r p s) hfresh hm]
      rfl
    · rw [arbEval_change hfresh hm, arbEval_change (s := holdCommand r p s) hfresh hm]
      exact congrArg (Prod.mk true) (transition_holdCommand _ r p (sample .mode s).2)

/-- Outside Auto mode no phase applies the held command, and the transition or the handler discards it. -/
theorem cycle_holdCommand {s : State} (h : s.mode ≠ .auto) (r : Int × Direction × Bool) (p : Bool) :
    cycle (holdCommand r p s) = holdCommand r false (cycle s) := by
  have hsame : (arbEval (holdCommand r p s)).1 = (arbEval s).1 := by rw [arbEval_holdCommand]
  cases hchange : (arbEval s).1 with
  | true =>
    rw [cycle_transition hchange, cycle_transition (hsame.trans hchange), arbEval_holdCommand, hchange]
    exact dwellService_ignoresCommand r false _
  | false =>
    have hmode : (arbEval s).2.mode ≠ .auto := (arbEval_fst_eq_false_iff s).1 hchange ▸ h
    rw [cycle_ordinary hchange, cycle_ordinary (hsame.trans hchange), arbEval_holdCommand,
      handler_holdCommand hmode, dwellService_ignoresCommand, indicatorPhase_ignoresCommand]

/-- Settles O55: the command that the state holds already is one of those that `cycle_holdCommand` speaks of, so none
is left pending. -/
theorem commandsOutsideAutoMoveNothing : Obligations.CommandsOutsideAutoMoveNothing := by
  intro s a d v p h
  have hpending : (cycle s).cmdPending = false :=
    congrArg State.cmdPending (cycle_holdCommand h (s.cmdAngle, s.cmdDir, s.cmdValid) s.cmdPending)
  refine ⟨cycle s, rfl, hpending, ?_⟩
  calc exec .cycle (holdCommand (a, d, v) p s)
    _ = .next (holdCommand (a, d, v) false (cycle s)) := congrArg Host.Outcome.next (cycle_holdCommand h (a, d, v) p)
    _ = .next { cycle s with cmdAngle := a, cmdDir := d, cmdValid := v } := by rw [← hpending]; rfl

end Sys2Proof.Machine

/-! ## What a step refuses (R230) -/

namespace Sys2Proof.Machine

/-- Every operation goes on: none refuses, and there is no fault to raise (R230). -/
theorem exec_goesOn (i : Instr) (s : State) : ∃ t, exec i s = .next t := by
  cases h : exec i s with
  | next t => exact ⟨t, rfl⟩
  | fault f => exact nomatch f
  | refused r => exact absurd h (exec_ne_refused i s r)

/-- A step goes on exactly when the configuration is accepted and the next stimulus is an operation. -/
theorem step_goesOn_iff (s : State) : (∃ t, step s = .next t) ↔
    s.cfg.Valid ∧ ∃ i, decodeStimulus (fetch s).1 = .ok i := by
  constructor
  · rintro ⟨t, h⟩
    obtain ⟨hv, i, hi, -⟩ := (step_next_iff s t).1 h
    exact ⟨hv, i, hi⟩
  · rintro ⟨hv, i, hi⟩
    rw [step_of_decodeStimulus hv hi]
    exact exec_goesOn i _

/-- A PIN event is an operation exactly when its code names a channel (R71). -/
theorem decodeStimulus_pin_ok_iff (c : BitVec 2) (v : BitVec 1) :
    (∃ i, decodeStimulus (.event (.pin c v)) = .ok i) ↔ c ≠ 3 := by
  rw [ne_eq, ← channelOfCode_eq_none_iff]
  simp only [decodeStimulus, decodeEvent]
  cases channelOfCode c <;> simp

/-- Every stimulus but a PIN event for channel 3 is an operation (R71, R72). -/
theorem decodeStimulus_ok_iff (x : Stimulus) :
    (∃ i, decodeStimulus x = .ok i) ↔ ∀ v, x ≠ .event (.pin 3 v) := by
  cases x with
  | byte b => exact iff_of_true ⟨_, rfl⟩ nofun
  | event e =>
    cases e with
    | reset => exact iff_of_true ⟨_, rfl⟩ nofun
    | tick d => exact iff_of_true ⟨_, rfl⟩ nofun
    | cycle => exact iff_of_true ⟨_, rfl⟩ nofun
    | pin c v => simp [decodeStimulus_pin_ok_iff]

/-- What a step takes is an operation unless a PIN event for channel 3 heads the agenda: no free choice is one. -/
theorem decodeStimulus_fetch_ok_iff (s : State) :
    (∃ i, decodeStimulus (fetch s).1 = .ok i) ↔ ∀ v rest, s.agenda ≠ .event (.pin 3 v) :: rest := by
  cases hagenda : s.agenda with
  | nil =>
    rw [fetch_nil hagenda]
    exact iff_of_true (decodeStimulus_act _) nofun
  | cons x rest =>
    rw [fetch_cons hagenda, decodeStimulus_ok_iff]
    simp

/-- Settles O9: a step goes on when it has an operation to run, and refuses by name when it has none. -/
theorem stepGoesOnUnlessTheSpecRefuses : Obligations.StepGoesOnUnlessTheSpecRefuses := by
  intro s
  refine ⟨?_, fun e he => ?_, fun v rest hv hagenda => ?_⟩
  · rw [step_goesOn_iff, decodeStimulus_fetch_ok_iff]
  · exact (step_refused_iff s _).2 (.inl ⟨e, he, rfl⟩)
  · exact (step_refused_iff s _).2 (.inr ⟨hv, .notAChannel, by rw [fetch_cons hagenda]; rfl, rfl⟩)

end Sys2Proof.Machine
